-- ==== Sys2Proof/Word.lean ====
section
/-! DEFINITION. The words of the RC5 bi-phase decoder core: the widths the spec gives its ports and registers. -/

namespace Sys2Proof

/-- The elapsed time of an edge in microseconds, 64 bits unsigned (`ET_WIDTH`, 00_scope.md R7; 30_encoding.md R59). -/
abbrev Elapsed := BitVec 64

/-- The request word `REQ[66:0]` = rst_req, edge_valid, level, et (30_encoding.md R57). -/
abbrev ReqWord := BitVec 67

/-- The dispatch word `DSP[5:0]` = inv, long, level, phase code (30_encoding.md R60). -/
abbrev DspWord := BitVec 6

/-- The response word `RSP[16:0]` = poll_valid, poll_data (30_encoding.md R62). -/
abbrev RspWord := BitVec 17

/-- The Command Word (`CW_WIDTH` = 14, 00_scope.md R7; 10_state.md R21). -/
abbrev CmdWord := BitVec 14

/-- The data of the response port (`POLL_WIDTH` = 16, 00_scope.md R7; 20_memory.md R43). -/
abbrev PollData := BitVec 16

end Sys2Proof
end

