-- ==== Sys2Proof/Syntax.lean ====
section
/-! DEFINITION. The operations of the block as data: one constructor per row of spec/opcode_table.json. -/

namespace Sys2Proof

/-- A logic level of the input line: low is 0, high is 1 (00_scope.md R8). -/
inductive Level where
  | low
  | high
deriving DecidableEq, Repr

/-- The three timing classes (40_timing_classifier.md R80). -/
inductive TimingClass where
  | short
  | long
  | invalid
deriving DecidableEq, Repr

/-- The operations of the block (00_scope.md R6, 30_encoding.md R63), one constructor per row of spec/opcode_table.json:
three of the request word `REQ`, one of the response word `RSP`, the 22 rows of the dispatch word `DSP`, and the four
rows of the two pure functions (format `FN`). Where the table has several rows under one mnemonic the constructor's
name adds the row's own condition. -/
inductive Instr where
  /-- `RESET` (42_reset_poll_idle.md R141). -/
  | reset
  /-- `EDGE level et` (41_edge_operation.md R95, R96). -/
  | edge (level : Level) (et : Elapsed)
  /-- `IDLE` (42_reset_poll_idle.md R143). -/
  | idle
  /-- `POLL` (42_reset_poll_idle.md R145). -/
  | poll
  /-- `EDGE.INERT`, `DSP` = xxx101 (41_edge_operation.md R97). -/
  | edgeInert
  /-- `EDGE.TIMING`, `DSP` = 1xx0xx: INVALID timing in a working phase (41_edge_operation.md R98). -/
  | edgeTimingWorking
  /-- `EDGE.TIMING`, `DSP` = 1xx100: INVALID timing in INITIAL (41_edge_operation.md R98). -/
  | edgeTimingInitial
  /-- `EDGE.FIRST_H`, `DSP` = 0x1100 (41_edge_operation.md R103). -/
  | edgeFirstH
  /-- `EDGE.FIRST_L`, `DSP` = 0x0100 (41_edge_operation.md R104). -/
  | edgeFirstL
  /-- `EDGE.S1_SH`, `DSP` = 001000 (41_edge_operation.md R105). -/
  | edgeS1Sh
  /-- `EDGE.M1_SL`, `DSP` = 000001 (41_edge_operation.md R106). -/
  | edgeM1Sl
  /-- `EDGE.M1_LL`, `DSP` = 010001 (41_edge_operation.md R107). -/
  | edgeM1Ll
  /-- `EDGE.M0_SH`, `DSP` = 001010 (41_edge_operation.md R108). -/
  | edgeM0Sh
  /-- `EDGE.M0_LH`, `DSP` = 011010 (41_edge_operation.md R109). -/
  | edgeM0Lh
  /-- `EDGE.S0_SL`, `DSP` = 000011 (41_edge_operation.md R115). -/
  | edgeS0Sl
  /-- `EDGE.S1_VIOL`, `DSP` = 000000: SHORT to low (41_edge_operation.md R116). -/
  | edgeS1ViolSl
  /-- `EDGE.S1_VIOL`, `DSP` = 010000: LONG to low (41_edge_operation.md R116). -/
  | edgeS1ViolLl
  /-- `EDGE.S1_VIOL`, `DSP` = 011000: LONG to high (41_edge_operation.md R116). -/
  | edgeS1ViolLh
  /-- `EDGE.M1_VIOL`, `DSP` = 001001: SHORT to high (41_edge_operation.md R117). -/
  | edgeM1ViolSh
  /-- `EDGE.M1_VIOL`, `DSP` = 011001: LONG to high (41_edge_operation.md R117). -/
  | edgeM1ViolLh
  /-- `EDGE.M0_VIOL`, `DSP` = 000010: SHORT to low (41_edge_operation.md R118). -/
  | edgeM0ViolSl
  /-- `EDGE.M0_VIOL`, `DSP` = 010010: LONG to low (41_edge_operation.md R118). -/
  | edgeM0ViolLl
  /-- `EDGE.S0_VIOL`, `DSP` = 001011: SHORT to high (41_edge_operation.md R119). -/
  | edgeS0ViolSh
  /-- `EDGE.S0_VIOL`, `DSP` = 010011: LONG to low (41_edge_operation.md R119). -/
  | edgeS0ViolLl
  /-- `EDGE.S0_VIOL`, `DSP` = 011011: LONG to high (41_edge_operation.md R119). -/
  | edgeS0ViolLh
  /-- `EDGE.UNREACH`, `DSP` = xxx11x: phase code 6 or 7 (41_edge_operation.md R120). -/
  | edgeUnreach
  /-- `classify.SHORT`: `classify` of an `et` in the SHORT range (40_timing_classifier.md R80). -/
  | classifyShort (et : Elapsed)
  /-- `classify.LONG`: `classify` of an `et` in the LONG range (40_timing_classifier.md R80). -/
  | classifyLong (et : Elapsed)
  /-- `classify.INVALID`: `classify` of an `et` outside both ranges (40_timing_classifier.md R80). -/
  | classifyInvalid (et : Elapsed)
  /-- `event(level, class)`, defined for SHORT and LONG (40_timing_classifier.md R85). -/
  | event (level : Level) (cls : TimingClass)
deriving DecidableEq, Repr

end Sys2Proof
end

