-- ==== Sys2Proof/Decode.lean ====
section
/-! DEFINITION. From the words at the ports to operations and back (30_encoding.md R57 to R62). The block has no bytes
(20_memory.md R43), so the decoder reads whole port words; an opcode-table word is told apart by its width (log 14). -/

namespace Sys2Proof

/-- The bit a level stands for: low is 0, high is 1 (00_scope.md R8). -/
def Level.bit : Level → Bool
  | .low => false
  | .high => true

/-- The level a bit stands for (00_scope.md R8). -/
def Level.ofBit : Bool → Level
  | false => .low
  | true => .high

/-- A word of one of the three encoded formats (30_encoding.md R57, R60, R62). -/
inductive PortWord where
  | req (w : ReqWord)
  | dsp (w : DspWord)
  | rsp (w : RspWord)
deriving DecidableEq, Repr

/-- Why a word of the opcode table names no operation. -/
inductive DecodeReject where
  /-- The width is that of no format (30_encoding.md R57, R60, R62). -/
  | noSuchWidth
  /-- A bit above the format's own width is set (log 14). -/
  | bitsAboveWord
  /-- Format FN: the pure functions have value ranges and no bit pattern (30_encoding.md R63). -/
  | noBitPattern
  /-- No row of the dispatch map matches; it happens for no word (30_encoding.md R61). -/
  | noDispatchRow
deriving DecidableEq, Repr

/-- The operation a request word selects; every word selects one (30_encoding.md R58, R59, R64). -/
def decodeReq (w : ReqWord) : Instr :=
  if w.getLsbD 66 then .reset
  else if w.getLsbD 65 then .edge (Level.ofBit (w.getLsbD 64)) (w.extractLsb' 0 64)
  else .idle

/-- One row of the dispatch map: the examined bits, their values, and the case (30_encoding.md R61). -/
structure DspRow where
  mask : DspWord
  pattern : DspWord
  instr : Instr
deriving DecidableEq, Repr

/-- The dispatch word fits the row's pattern. -/
def DspRow.fits (r : DspRow) (w : DspWord) : Bool := w &&& r.mask == r.pattern

/-- The dispatch map of 30_encoding.md R61, one row per pattern, in its order. -/
def dspTable : List DspRow :=
  [ ⟨0b000111#6, 0b000101#6, .edgeInert⟩,
    ⟨0b100100#6, 0b100000#6, .edgeTimingWorking⟩,
    ⟨0b100111#6, 0b100100#6, .edgeTimingInitial⟩,
    ⟨0b101111#6, 0b001100#6, .edgeFirstH⟩,
    ⟨0b101111#6, 0b000100#6, .edgeFirstL⟩,
    ⟨0b111111#6, 0b001000#6, .edgeS1Sh⟩,
    ⟨0b111111#6, 0b000001#6, .edgeM1Sl⟩,
    ⟨0b111111#6, 0b010001#6, .edgeM1Ll⟩,
    ⟨0b111111#6, 0b001010#6, .edgeM0Sh⟩,
    ⟨0b111111#6, 0b011010#6, .edgeM0Lh⟩,
    ⟨0b111111#6, 0b000011#6, .edgeS0Sl⟩ ] ++
  [ ⟨0b111111#6, 0b000000#6, .edgeS1ViolSl⟩,
    ⟨0b111111#6, 0b010000#6, .edgeS1ViolLl⟩,
    ⟨0b111111#6, 0b011000#6, .edgeS1ViolLh⟩,
    ⟨0b111111#6, 0b001001#6, .edgeM1ViolSh⟩,
    ⟨0b111111#6, 0b011001#6, .edgeM1ViolLh⟩,
    ⟨0b111111#6, 0b000010#6, .edgeM0ViolSl⟩,
    ⟨0b111111#6, 0b010010#6, .edgeM0ViolLl⟩,
    ⟨0b111111#6, 0b001011#6, .edgeS0ViolSh⟩,
    ⟨0b111111#6, 0b010011#6, .edgeS0ViolLl⟩,
    ⟨0b111111#6, 0b011011#6, .edgeS0ViolLh⟩,
    ⟨0b000110#6, 0b000110#6, .edgeUnreach⟩ ]

/-- The dispatch case of a dispatch word: the row it fits (30_encoding.md R61; a word with `inv` and `long` both 1 has the
meaning of its `inv` bit, R66). -/
def decodeDsp (w : DspWord) : Except DecodeReject Instr :=
  match dspTable.find? (fun r => r.fits w) with
  | some r => .ok r.instr
  | none => .error .noDispatchRow

/-- The operation a port word names. Sampling the response word is `POLL`, whatever it holds (30_encoding.md R62). -/
def decode : PortWord → Except DecodeReject Instr
  | .req w => .ok (decodeReq w)
  | .dsp w => decodeDsp w
  | .rsp _ => .ok .poll

/-- A word of the opcode table as a port word: its format is told by its width, which the table gives as 67, 6 or 17 bits
and the host in whole bytes (72, 8, 24). A set bit above the format's width is refused (log 14). -/
def tablePortWord (nbits w : Nat) : Except DecodeReject PortWord :=
  match nbits with
  | 67 | 72 => if w < 2 ^ 67 then .ok (.req (BitVec.ofNat 67 w)) else .error .bitsAboveWord
  | 6 | 8 => if w < 2 ^ 6 then .ok (.dsp (BitVec.ofNat 6 w)) else .error .bitsAboveWord
  | 17 | 24 => if w < 2 ^ 17 then .ok (.rsp (BitVec.ofNat 17 w)) else .error .bitsAboveWord
  | 0 => .error .noBitPattern
  | _ => .error .noSuchWidth

/-- The decoder on a word of the opcode table, with the reason where it refuses. -/
def decodeTable (nbits w : Nat) : Except DecodeReject Instr :=
  match tablePortWord nbits w with
  | .ok p => decode p
  | .error e => .error e

/-- The operation the decoder reads from an opcode-table word of `nbits` bits, bit 0 the least significant. -/
def decodeTableWord (nbits w : Nat) : Option Instr :=
  match decodeTable nbits w with
  | .ok i => some i
  | .error _ => none

/-- The request word of `RESET`, `REQ` = 1 and 66 zeros (30_encoding.md R70). -/
def resetWord : ReqWord := 0x40000000000000000#67

/-- The request word of `IDLE`, 67 zeros (30_encoding.md R70). -/
def idleWord : ReqWord := 0x00000000000000000#67

/-- The request word of `EDGE level et`, `REQ` = 0, 1, level, et (30_encoding.md R57, R70). -/
def edgeWord (level : Level) (et : Elapsed) : ReqWord :=
  0b01#2 ++ BitVec.ofBool level.bit ++ et

/-- A port word of an operation, with 0 in every bit its row does not examine (30_encoding.md R57, R61, R62, R70). The
pure functions have no bit pattern, so no word (30_encoding.md R63). -/
def encode : Instr → Option PortWord
  | .reset => some (.req resetWord)
  | .edge level et => some (.req (edgeWord level et))
  | .idle => some (.req idleWord)
  | .poll => some (.rsp 0)
  | .edgeInert => some (.dsp 0b000101#6)
  | .edgeTimingWorking => some (.dsp 0b100000#6)
  | .edgeTimingInitial => some (.dsp 0b100100#6)
  | .edgeFirstH => some (.dsp 0b001100#6)
  | .edgeFirstL => some (.dsp 0b000100#6)
  | .edgeS1Sh => some (.dsp 0b001000#6)
  | .edgeM1Sl => some (.dsp 0b000001#6)
  | .edgeM1Ll => some (.dsp 0b010001#6)
  | .edgeM0Sh => some (.dsp 0b001010#6)
  | .edgeM0Lh => some (.dsp 0b011010#6)
  | .edgeS0Sl => some (.dsp 0b000011#6)
  | .edgeS1ViolSl => some (.dsp 0b000000#6)
  | .edgeS1ViolLl => some (.dsp 0b010000#6)
  | .edgeS1ViolLh => some (.dsp 0b011000#6)
  | .edgeM1ViolSh => some (.dsp 0b001001#6)
  | .edgeM1ViolLh => some (.dsp 0b011001#6)
  | .edgeM0ViolSl => some (.dsp 0b000010#6)
  | .edgeM0ViolLl => some (.dsp 0b010010#6)
  | .edgeS0ViolSh => some (.dsp 0b001011#6)
  | .edgeS0ViolLl => some (.dsp 0b010011#6)
  | .edgeS0ViolLh => some (.dsp 0b011011#6)
  | .edgeUnreach => some (.dsp 0b000110#6)
  | .classifyShort _ => none
  | .classifyLong _ => none
  | .classifyInvalid _ => none
  | .event _ _ => none

end Sys2Proof
end

