-- ==== Sys2Proof/Config.lean ====
section
/-! DEFINITION. The fixed parameters of the hardware (00_scope.md R7). They are constants: a model of this block may name
them and must not vary them (40_timing_classifier.md R81). `F_CLK` is read by no rule and is no constant here (log 13). -/

namespace Sys2Proof.Config

/-- `T_SHORT_MIN`, inclusive, in microseconds (00_scope.md R7, 40_timing_classifier.md R81; log 18). -/
def tShortMin : Nat := 444

/-- `T_SHORT_MAX`, inclusive, in microseconds (00_scope.md R7, 40_timing_classifier.md R81; log 18). -/
def tShortMax : Nat := 1333

/-- `T_LONG_MIN`, inclusive, in microseconds (00_scope.md R7, 40_timing_classifier.md R81; log 18). -/
def tLongMin : Nat := 1334

/-- `T_LONG_MAX`, inclusive, in microseconds (00_scope.md R7, 40_timing_classifier.md R81; log 18). -/
def tLongMax : Nat := 2222

/-- `N_BITS`, the frame length; the value `RESET` writes into `CNT` (00_scope.md R7, 10_state.md R22, R32). -/
def nBits : Fin 15 := 14

end Sys2Proof.Config
end

