-- ==== Sys2Proof/Machine/State.lean ====
section
/-! DEFINITION. The state of the block (10_state.md R20) and, beside it, the model's own fields: what an output or a
reader shows of an operation, and what the environment will still present (INVENTORY.md, State). -/

namespace Sys2Proof.Machine

/-- The Decode Phase (10_state.md R23), a tagged enumeration (R24). The last two are the register's codes 6 and 7, which
no rule writes (R24, R66); they are here because 41_edge_operation.md R120 says what an `EDGE` does in them (log 7). -/
inductive Phase where
  | startOne
  | midOne
  | midZero
  | startZero
  | initial
  | done
  | code6
  | code7
deriving DecidableEq, Repr

/-- Why an operation abandoned the session; a trace of the model, held by no register and shown at no port
(60_exceptions.md R161; log 5). -/
inductive Cause where
  | noAbandon
  | timing
  | protocol
  | overrun
deriving DecidableEq, Repr

/-- The combinational values `DSP[5]`, `DSP[4]`, `DSP[3]` as last driven (30_encoding.md R60; log 6). -/
structure Wires where
  inv : Bool
  long : Bool
  level : Bool
deriving DecidableEq, Repr

/-- What the environment presents in one clock cycle: the request word, and whether the consumer samples the response
port in that cycle (30_encoding.md R55, R57, R62; log 16). -/
structure PortCycle where
  req : ReqWord
  sample : Bool
deriving DecidableEq, Repr

/-- The state. The first four fields are the block's whole architectural state (10_state.md R20); the others are the
model's own (INVENTORY.md). -/
structure State where
  /-- `CW`, the Command Word (10_state.md R21). -/
  cw : CmdWord
  /-- `CNT`, the Bit Counter, 0 to 14 (10_state.md R22; log 9). -/
  cnt : Fin 15
  /-- `PHASE`, the Decode Phase (10_state.md R23). -/
  phase : Phase
  /-- `READY`, the Ready Flag (10_state.md R25). -/
  ready : Bool
  /-- The output `tmr_restart` during the operation just done (30_encoding.md R56; log 4). -/
  tmrRestart : Bool
  /-- The cause of abandonment of the operation just done (60_exceptions.md R161; log 5). -/
  cause : Cause
  /-- The response word the consumer took at its last `POLL` (42_reset_poll_idle.md R145; log 3). -/
  sample : RspWord
  /-- The classifier's and the event function's outputs as last driven (30_encoding.md R60; log 6). -/
  wires : Wires
  /-- What the environment will present, one entry per coming clock cycle (70_reset_and_hazards.md R197; log 1). -/
  inputs : List PortCycle
deriving DecidableEq, Repr

/-- Nothing stops the block: no failure is fatal or an error to anyone, and a violation abandons the session, which is a
next state (60_exceptions.md R155, R160; log 15). So there is no fault to name. -/
inductive Fault where
deriving DecidableEq, Repr

/-- Why the model would have no meaning for an instruction. -/
inductive Refusal where
  /-- Raised by an arm of `exec` for an instruction without a meaning; safe. No arm raises it. -/
  | notModelled (mnemonic : String)
deriving DecidableEq, Repr

/-- What a meaning answers. -/
abbrev Result := Host.Outcome State Fault Refusal

/-- The state right after `RESET` (10_state.md R32): `CNT` = 14, `CW` = 0, `PHASE` = INITIAL, `READY` = 0, and
`tmr_restart` = 0 (70_reset_and_hazards.md R182). The model's own fields hold the values of log 1, 3, 5 and 6. -/
def State.reset : State where
  cw := 0
  cnt := Config.nBits
  phase := .initial
  ready := false
  tmrRestart := false
  cause := .noAbandon
  sample := 0
  wires := ⟨false, false, false⟩
  inputs := []

end Sys2Proof.Machine
end

