-- ==== Sys2Proof/Machine/Operands.lean ====
section
/-! DEFINITION. What the operands and the phase of an `EDGE` are turned into: the timing class, the event code, the phase
codes, the dispatch word, the transition table and its packed form. -/

namespace Sys2Proof.Machine

/-- The pulse-width classifier: both ranges inclusive, unsigned comparison of all 64 bits
(40_timing_classifier.md R80, R82, R84). -/
def classify (et : Elapsed) : TimingClass :=
  if Config.tShortMin ≤ et.toNat ∧ et.toNat ≤ Config.tShortMax then .short
  else if Config.tLongMin ≤ et.toNat ∧ et.toNat ≤ Config.tLongMax then .long
  else .invalid

/-- The four event codes, SHORT or LONG to low or high (40_timing_classifier.md R85). -/
inductive EventCode where
  | sl
  | sh
  | ll
  | lh
deriving DecidableEq, Repr

/-- The 2-bit number of an event code: `ev[1]` is LONG, `ev[0]` is the level (40_timing_classifier.md R85). -/
def EventCode.number : EventCode → BitVec 2
  | .sl => 0
  | .sh => 1
  | .ll => 2
  | .lh => 3

/-- `event(level, class)`; INVALID has no event code (40_timing_classifier.md R85, R86). -/
def event (level : Level) (cls : TimingClass) : Option EventCode :=
  match cls, level with
  | .short, .low => some .sl
  | .short, .high => some .sh
  | .long, .low => some .ll
  | .long, .high => some .lh
  | .invalid, _ => none

/-- The 3-bit code of a phase (10_state.md R24). -/
def Phase.code : Phase → BitVec 3
  | .startOne => 0
  | .midOne => 1
  | .midZero => 2
  | .startZero => 3
  | .initial => 4
  | .done => 5
  | .code6 => 6
  | .code7 => 7

/-- The phase a 3-bit code stands for (10_state.md R24). -/
def Phase.ofCode (c : BitVec 3) : Phase :=
  match c.toNat with
  | 0 => .startOne
  | 1 => .midOne
  | 2 => .midZero
  | 3 => .startZero
  | 4 => .initial
  | 5 => .done
  | 6 => .code6
  | _ => .code7

/-- One of the six named phases, not code 6 or 7 (10_state.md R23, R24). -/
def Phase.named : Phase → Bool
  | .code6 | .code7 => false
  | .startOne | .midOne | .midZero | .startZero | .initial | .done => true

/-- A working phase: one of the four mid- and start-phases (00_scope.md R12). -/
def Phase.working : Phase → Bool
  | .startOne | .midOne | .midZero | .startZero => true
  | .initial | .done | .code6 | .code7 => false

/-- A mid-phase, whose entry commits a bit (41_edge_operation.md R96 step 7). -/
def Phase.mid : Phase → Bool
  | .midOne | .midZero => true
  | .startOne | .startZero | .initial | .done | .code6 | .code7 => false

/-- The transition table `T`; `none` is VIOLATION (41_edge_operation.md R100). It is defined for the four working phases
only; the rows of the others are never read (R96 steps 1 and 4, R120). -/
def transition : Phase → EventCode → Option Phase
  | .startOne, .sl => none
  | .startOne, .sh => some .midOne
  | .startOne, .ll => none
  | .startOne, .lh => none
  | .midOne, .sl => some .startOne
  | .midOne, .sh => none
  | .midOne, .ll => some .midZero
  | .midOne, .lh => none
  | .midZero, .sl => none
  | .midZero, .sh => some .startZero
  | .midZero, .ll => none
  | .midZero, .lh => some .midOne
  | .startZero, .sl => some .midZero
  | .startZero, .sh => none
  | .startZero, .ll => none
  | .startZero, .lh => none
  | .initial, _ => none
  | .done, _ => none
  | .code6, _ => none
  | .code7, _ => none

/-- The packed row of a working phase: two bits per event code, `ev` = 0 in bits 1:0 (41_edge_operation.md R102). -/
def packedRow : Phase → BitVec 8
  | .startOne => 0x04
  | .midOne => 0x64
  | .midZero => 0x6E
  | .startZero => 0xFE
  | .initial | .done | .code6 | .code7 => 0x00

/-- The lookup in the packed form: bits 2·ev+1 : 2·ev of the row (41_edge_operation.md R102). -/
def packedNext (p : Phase) (ev : EventCode) : BitVec 2 :=
  (packedRow p >>> (2 * ev.number.toNat)).truncate 2

/-- The wires a class and a level drive: `long` is 0 for SHORT and for INVALID (30_encoding.md R60). -/
def wiresOf (cls : TimingClass) (level : Level) : Wires where
  inv := decide (cls = .invalid)
  long := decide (cls = .long)
  level := level.bit

/-- The dispatch word of the wires and the phase (30_encoding.md R60). -/
def dspWord (w : Wires) (p : Phase) : DspWord :=
  BitVec.ofBool w.inv ++ BitVec.ofBool w.long ++ BitVec.ofBool w.level ++ p.code

end Sys2Proof.Machine
end

