-- ==== Sys2Proof/Machine/Flags.lean ====
section
/-! DEFINITION. The flag `READY`, the completion check that sets it, and the outputs that are functions of the registers. -/

namespace Sys2Proof.Machine

/-- The completion check: the counter is 0 and the phase being entered is START_ONE or MID_ZERO
(41_edge_operation.md R113; R96 step 8). -/
def completes (nxt : Phase) (cnt : Fin 15) : Bool :=
  decide (cnt = 0) && (decide (nxt = .startOne) || decide (nxt = .midZero))

/-- The output `ready` (30_encoding.md R56). -/
def readyOut (s : State) : Bool := s.ready

/-- The output `poll_valid` (30_encoding.md R56). -/
def pollValid (s : State) : Bool := s.ready

/-- The output `poll_data`: the Command Word while `READY` = 1, else 0 (30_encoding.md R56; 20_memory.md R43). -/
def pollData (s : State) : PollData := if s.ready then s.cw.zeroExtend 16 else 0

/-- The output `edge_en`: 1 exactly when `PHASE` is not DONE (30_encoding.md R56; 10_state.md R30). -/
def edgeEn (s : State) : Bool := decide (s.phase ≠ .done)

/-- The response word `RSP` = poll_valid, poll_data (30_encoding.md R62). -/
def rspWord (s : State) : RspWord := BitVec.ofBool (pollValid s) ++ pollData s

/-- The number of a cause in a model's trace (60_exceptions.md R161). -/
def Cause.number : Cause → Nat
  | .noAbandon => 0
  | .timing => 1
  | .protocol => 2
  | .overrun => 3

end Sys2Proof.Machine
end

