-- ==== Sys2Proof/Machine/Ops.lean ====
section
/-! DEFINITION. The shared operations over the state: the reset write, session abandonment (the block's one exception
entry; 60_exceptions.md R163: there is no return), bit commit, completion, phase entry, sampling, and fetching the
cycle's operation. -/

namespace Sys2Proof.Machine

/-- The register write of `RESET` and of every abandonment (42_reset_poll_idle.md R141, R142; 60_exceptions.md R160). -/
def State.writeReset (s : State) : State :=
  { s with cw := 0, cnt := Config.nBits, phase := .initial, ready := false }

/-- The outputs of an operation that asks for no timer restart and abandons nothing (41_edge_operation.md R114). -/
def State.quiet (s : State) : State := { s with tmrRestart := false, cause := .noAbandon }

/-- `raise Abandon(c)`: all four registers take their reset values, `tmr_restart` = 0, nothing is saved
(60_exceptions.md R160; 41_edge_operation.md R96). The cause is the model's trace (60_exceptions.md R161). -/
def State.abandon (c : Cause) (s : State) : State :=
  { s.writeReset with tmrRestart := false, cause := c }

/-- `PHASE <- p ; out.tmr_restart <- 1` (41_edge_operation.md R96 steps 4 and 9, R114). -/
def State.enter (p : Phase) (s : State) : State :=
  { s with phase := p, tmrRestart := true, cause := .noAbandon }

/-- Frame completion: `PHASE <- DONE ; READY <- 1`, `tmr_restart` = 0 (41_edge_operation.md R113). -/
def State.complete (s : State) : State :=
  { s with phase := .done, ready := true, tmrRestart := false, cause := .noAbandon }

/-- The counter minus 1; used with 1 to 14 only (41_edge_operation.md R121). -/
def predCnt (c : Fin 15) : Fin 15 := ⟨c.val - 1, by omega⟩

/-- `CW[c] <- 1`, the other bits kept: `CW | (1 << c)` (41_edge_operation.md R121). -/
def setBit (cw : CmdWord) (c : Fin 15) : CmdWord := cw ||| (1#14 <<< c.val)

/-- Bit commit of a 0: the counter goes down by 1, `CW` is not written (41_edge_operation.md R110). -/
def State.commitZero (s : State) : State := { s with cnt := predCnt s.cnt }

/-- Bit commit of a 1: the counter goes down by 1 and the bit at its new value is set (41_edge_operation.md R111). -/
def State.commitOne (s : State) : State :=
  { s with cnt := predCnt s.cnt, cw := setBit s.cw (predCnt s.cnt) }

/-- The first edge's commit of a 0: `CNT <- 13` (41_edge_operation.md R104). -/
def State.firstZero (s : State) : State := { s with cnt := 13 }

/-- The first edge's commit of a 1: `CNT <- 13 ; CW[13] <- 1` (41_edge_operation.md R103). -/
def State.firstOne (s : State) : State := { s with cnt := 13, cw := setBit s.cw 13 }

/-- The completion check and what follows it: steps 8 and 9 of 41_edge_operation.md R96 (R113, R114). -/
def State.finish (nxt : Phase) (s : State) : State :=
  if completes nxt s.cnt then s.complete else s.enter nxt

/-- The bit commit that entering a mid-phase brings; none for the others (41_edge_operation.md R110, R111). -/
def State.commit (nxt : Phase) (s : State) : State :=
  match nxt with
  | .midOne => s.commitOne
  | .midZero => s.commitZero
  | .startOne | .startZero | .initial | .done | .code6 | .code7 => s

/-- Steps 7 to 9 of 41_edge_operation.md R96 for a legal next phase: overrun check (R112), bit commit, completion check. -/
def State.advance (nxt : Phase) (s : State) : State :=
  if nxt.mid ∧ s.cnt = 0 then s.abandon .overrun else (s.commit nxt).finish nxt

/-- The classifier and the event function drive `DSP[5:3]` (30_encoding.md R60; log 6). -/
def State.drive (w : Wires) (s : State) : State := { s with wires := w }

/-- The consumer takes the response word (42_reset_poll_idle.md R145; 30_encoding.md R62; log 3). -/
def State.takeSample (s : State) : State := { s with sample := rspWord s }

/-- The state with `cs` as what the environment will present. -/
def State.withInputs (cs : List PortCycle) (s : State) : State := { s with inputs := cs }

/-- The operation of a cycle: what its request word selects (30_encoding.md R58), or `POLL` when the consumer samples
while the request port is idle (30_encoding.md R70). -/
def cycleInstr (c : PortCycle) : Instr :=
  if c.sample ∧ decodeReq c.req = .idle then .poll else decodeReq c.req

/-- Fetching the cycle's operation: the first entry of the input list, taken off it. A sample made in a cycle with another
request sees the state before that request's effect (20_memory.md R49, 42_reset_poll_idle.md R145; log 16). Where the
list is empty the environment presents an idle cycle (log 1). -/
def fetch (s : State) : Instr × State :=
  match s.inputs with
  | [] => (.idle, s)
  | c :: rest =>
    (cycleInstr c, if c.sample then (s.withInputs rest).takeSample else s.withInputs rest)

/-- An elapsed time of the class a dispatch word's `inv` and `long` bits name: 0 for INVALID, 1778 for LONG, 889 for SHORT
(the nominal values of 40_timing_classifier.md R81; log 2). -/
def representativeEt (inv long : Bool) : Elapsed :=
  if inv then 0 else if long then 1778 else 889

/-- `s` made to run an opcode-table word next (log 2): a request word is put first on the input list; a response word puts a
`POLL` cycle there; a dispatch word is one the core forms, so the phase of its low bits is put into `PHASE`, its
high bits onto the wires, and an `EDGE` that drives these wires first on the list. A word that names nothing changes nothing. -/
def placeTableWord (s : State) (nbits w : Nat) : State :=
  match tablePortWord nbits w with
  | .ok (.req r) => { s with inputs := ⟨r, false⟩ :: s.inputs }
  | .ok (.rsp _) => { s with inputs := ⟨idleWord, true⟩ :: s.inputs }
  | .ok (.dsp d) =>
    { s with
      phase := Phase.ofCode (d.extractLsb' 0 3)
      wires := ⟨d.getLsbD 5, d.getLsbD 4 && !d.getLsbD 5, d.getLsbD 3⟩
      inputs := ⟨edgeWord (Level.ofBit (d.getLsbD 3)) (representativeEt (d.getLsbD 5) (d.getLsbD 4)), false⟩ :: s.inputs }
  | .error _ => s

end Sys2Proof.Machine
end

