-- ==== Sys2Proof/Machine/DispatchCase.lean ====
section
/-! DEFINITION. The meanings of the 22 rows of the dispatch map (30_encoding.md R61), each written from its own rule of
41_edge_operation.md. A case runs after the dispatch has examined the phase, the class and the level, so it does not
examine them again (log 11); it does examine `CNT`, which is not part of `DSP` (30_encoding.md R61; log 10). -/

namespace Sys2Proof.Machine

/-- `EDGE.INERT` (41_edge_operation.md R97): `return`. -/
def execEdgeInert (s : State) : Result := .next s.quiet

/-- `EDGE.TIMING` in a working phase (41_edge_operation.md R98): `raise Abandon(TIMING)`. -/
def execEdgeTimingWorking (s : State) : Result := .next (s.abandon .timing)

/-- `EDGE.TIMING` in INITIAL (41_edge_operation.md R98): `raise Abandon(TIMING)`. -/
def execEdgeTimingInitial (s : State) : Result := .next (s.abandon .timing)

/-- `EDGE.FIRST_H` (41_edge_operation.md R103). -/
def execEdgeFirstH (s : State) : Result := .next (s.firstOne.enter .midOne)

/-- `EDGE.FIRST_L` (41_edge_operation.md R104). -/
def execEdgeFirstL (s : State) : Result := .next (s.firstZero.enter .midZero)

/-- `EDGE.S1_SH` (41_edge_operation.md R105), after the overrun check of R112. -/
def execEdgeS1Sh (s : State) : Result :=
  .next (if s.cnt = 0 then s.abandon .overrun else s.commitOne.enter .midOne)

/-- `EDGE.M1_SL` (41_edge_operation.md R106). -/
def execEdgeM1Sl (s : State) : Result :=
  .next (if s.cnt = 0 then s.complete else s.enter .startOne)

/-- `EDGE.M1_LL` (41_edge_operation.md R107). -/
def execEdgeM1Ll (s : State) : Result :=
  .next (if s.cnt = 0 then s.abandon .overrun
    else if s.commitZero.cnt = 0 then s.commitZero.complete else s.commitZero.enter .midZero)

/-- `EDGE.M0_SH` (41_edge_operation.md R108). -/
def execEdgeM0Sh (s : State) : Result := .next (s.enter .startZero)

/-- `EDGE.M0_LH` (41_edge_operation.md R109), after the overrun check of R112. -/
def execEdgeM0Lh (s : State) : Result :=
  .next (if s.cnt = 0 then s.abandon .overrun else s.commitOne.enter .midOne)

/-- `EDGE.S0_SL` (41_edge_operation.md R115), after the overrun check of R112. -/
def execEdgeS0Sl (s : State) : Result :=
  .next (if s.cnt = 0 then s.abandon .overrun
    else if s.commitZero.cnt = 0 then s.commitZero.complete else s.commitZero.enter .midZero)

/-- `EDGE.S1_VIOL`, SHORT to low (41_edge_operation.md R116). -/
def execEdgeS1ViolSl (s : State) : Result := .next (s.abandon .protocol)

/-- `EDGE.S1_VIOL`, LONG to low (41_edge_operation.md R116). -/
def execEdgeS1ViolLl (s : State) : Result := .next (s.abandon .protocol)

/-- `EDGE.S1_VIOL`, LONG to high (41_edge_operation.md R116). -/
def execEdgeS1ViolLh (s : State) : Result := .next (s.abandon .protocol)

/-- `EDGE.M1_VIOL`, SHORT to high (41_edge_operation.md R117). -/
def execEdgeM1ViolSh (s : State) : Result := .next (s.abandon .protocol)

/-- `EDGE.M1_VIOL`, LONG to high (41_edge_operation.md R117). -/
def execEdgeM1ViolLh (s : State) : Result := .next (s.abandon .protocol)

/-- `EDGE.M0_VIOL`, SHORT to low (41_edge_operation.md R118). -/
def execEdgeM0ViolSl (s : State) : Result := .next (s.abandon .protocol)

/-- `EDGE.M0_VIOL`, LONG to low (41_edge_operation.md R118). -/
def execEdgeM0ViolLl (s : State) : Result := .next (s.abandon .protocol)

/-- `EDGE.S0_VIOL`, SHORT to high (41_edge_operation.md R119). -/
def execEdgeS0ViolSh (s : State) : Result := .next (s.abandon .protocol)

/-- `EDGE.S0_VIOL`, LONG to low (41_edge_operation.md R119). -/
def execEdgeS0ViolLl (s : State) : Result := .next (s.abandon .protocol)

/-- `EDGE.S0_VIOL`, LONG to high (41_edge_operation.md R119). -/
def execEdgeS0ViolLh (s : State) : Result := .next (s.abandon .protocol)

/-- `EDGE.UNREACH` (41_edge_operation.md R120): what the hardware does, `raise Abandon(PROTOCOL)`. -/
def execEdgeUnreach (s : State) : Result := .next (s.abandon .protocol)

end Sys2Proof.Machine
end

