-- ==== Sys2Proof/Machine/Function.lean ====
section
/-! DEFINITION. The meanings of the pure functions' rows (format FN, 30_encoding.md R63): they change no register; their
result is what they drive onto `DSP[5:3]` (40_timing_classifier.md R80, R85; log 6). -/

namespace Sys2Proof.Machine

/-- `classify(et)` drives `inv` and `long` (40_timing_classifier.md R80; 30_encoding.md R60). -/
def State.driveClass (et : Elapsed) (s : State) : State :=
  s.drive { s.wires with inv := decide (classify et = .invalid), long := decide (classify et = .long) }

/-- `classify.SHORT` (40_timing_classifier.md R80). -/
def execClassifyShort (et : Elapsed) (s : State) : Result := .next (s.driveClass et)

/-- `classify.LONG` (40_timing_classifier.md R80). -/
def execClassifyLong (et : Elapsed) (s : State) : Result := .next (s.driveClass et)

/-- `classify.INVALID` (40_timing_classifier.md R80). -/
def execClassifyInvalid (et : Elapsed) (s : State) : Result := .next (s.driveClass et)

/-- `event(level, class)` drives `DSP[4:3]` = LONG, level (40_timing_classifier.md R85). With an INVALID class, for which
the function is not defined, the wires carry what 30_encoding.md R60 and 40_timing_classifier.md R86 give them. -/
def execEvent (level : Level) (cls : TimingClass) (s : State) : Result :=
  .next (s.drive { s.wires with long := decide (cls = .long), level := level.bit })

end Sys2Proof.Machine
end

