-- ==== Sys2Proof/Machine/Request.lean ====
section
/-! DEFINITION. The meanings of the operations at the ports: `RESET`, `EDGE`, `IDLE` and `POLL`. -/

namespace Sys2Proof.Machine

/-- `RESET` (42_reset_poll_idle.md R141): the four reset values, `tmr_restart` = 0. -/
def execReset (s : State) : Result := .next s.writeReset.quiet

/-- `IDLE` (42_reset_poll_idle.md R143): no register is written, `tmr_restart` = 0. -/
def execIdle (s : State) : Result := .next s.quiet

/-- `POLL` (42_reset_poll_idle.md R145): the response word is taken, no register is written; the request port is idle in
that cycle, so `tmr_restart` = 0 (30_encoding.md R70). -/
def execPoll (s : State) : Result := .next s.takeSample.quiet

/-- The ordered procedure of `EDGE` (41_edge_operation.md R96), its steps in the order of the rule, on the state whose
wires already show the operands. Phase codes 6 and 7 are a protocol violation whatever the operands (R120; log 8). -/
def edgeProcedure (level : Level) (et : Elapsed) (s : State) : State :=
  if s.phase = .done then s.quiet
  else if s.phase.named = false then s.abandon .protocol
  else
    match event level (classify et) with
    | none => s.abandon .timing
    | some ev =>
      if s.phase = .initial then
        match level with
        | .high => s.firstOne.enter .midOne
        | .low => s.firstZero.enter .midZero
      else
        match transition s.phase ev with
        | none => s.abandon .protocol
        | some nxt => s.advance nxt

/-- `EDGE level et` (41_edge_operation.md R95, R96). The classifier and the event function see the operands in every phase
(30_encoding.md R60); in DONE their values are not used (R97). -/
def execEdge (level : Level) (et : Elapsed) (s : State) : Result :=
  .next (edgeProcedure level et (s.drive (wiresOf (classify et) level)))

end Sys2Proof.Machine
end

