-- ==== Sys2Proof/Machine/Dispatch.lean ====
section
/-! DEFINITION. One arm per constructor of `Instr`, each one direct call of its meaning. -/

namespace Sys2Proof.Machine

def exec (i : Instr) (s : State) : Host.Outcome State Fault Refusal :=
  match i with
  | .reset => Sys2Proof.Machine.execReset s
  | .edge level et => Sys2Proof.Machine.execEdge level et s
  | .idle => Sys2Proof.Machine.execIdle s
  | .poll => Sys2Proof.Machine.execPoll s
  | .edgeInert => Sys2Proof.Machine.execEdgeInert s
  | .edgeTimingWorking => Sys2Proof.Machine.execEdgeTimingWorking s
  | .edgeTimingInitial => Sys2Proof.Machine.execEdgeTimingInitial s
  | .edgeFirstH => Sys2Proof.Machine.execEdgeFirstH s
  | .edgeFirstL => Sys2Proof.Machine.execEdgeFirstL s
  | .edgeS1Sh => Sys2Proof.Machine.execEdgeS1Sh s
  | .edgeM1Sl => Sys2Proof.Machine.execEdgeM1Sl s
  | .edgeM1Ll => Sys2Proof.Machine.execEdgeM1Ll s
  | .edgeM0Sh => Sys2Proof.Machine.execEdgeM0Sh s
  | .edgeM0Lh => Sys2Proof.Machine.execEdgeM0Lh s
  | .edgeS0Sl => Sys2Proof.Machine.execEdgeS0Sl s
  | .edgeS1ViolSl => Sys2Proof.Machine.execEdgeS1ViolSl s
  | .edgeS1ViolLl => Sys2Proof.Machine.execEdgeS1ViolLl s
  | .edgeS1ViolLh => Sys2Proof.Machine.execEdgeS1ViolLh s
  | .edgeM1ViolSh => Sys2Proof.Machine.execEdgeM1ViolSh s
  | .edgeM1ViolLh => Sys2Proof.Machine.execEdgeM1ViolLh s
  | .edgeM0ViolSl => Sys2Proof.Machine.execEdgeM0ViolSl s
  | .edgeM0ViolLl => Sys2Proof.Machine.execEdgeM0ViolLl s
  | .edgeS0ViolSh => Sys2Proof.Machine.execEdgeS0ViolSh s
  | .edgeS0ViolLl => Sys2Proof.Machine.execEdgeS0ViolLl s
  | .edgeS0ViolLh => Sys2Proof.Machine.execEdgeS0ViolLh s
  | .edgeUnreach => Sys2Proof.Machine.execEdgeUnreach s
  | .classifyShort et => Sys2Proof.Machine.execClassifyShort et s
  | .classifyLong et => Sys2Proof.Machine.execClassifyLong et s
  | .classifyInvalid et => Sys2Proof.Machine.execClassifyInvalid et s
  | .event level cls => Sys2Proof.Machine.execEvent level cls s

end Sys2Proof.Machine
end

