-- ==== Sys2Proof/Machine/Step.lean ====
section
/-! DEFINITION. One clock cycle: the cycle's operation is fetched from the input list and run (42_reset_poll_idle.md R140). -/

namespace Sys2Proof.Machine

/-- One step: exactly one operation per clock cycle (42_reset_poll_idle.md R140). -/
def step (s : State) : Host.Outcome State Fault Refusal := exec (fetch s).1 (fetch s).2

/-- `s` made to run the opcode-table word `w` of `nbits` bits at its next step (log 2). -/
def State.withFetchWord (s : State) (nbits w : Nat) : State := placeTableWord s nbits w

end Sys2Proof.Machine
end

