-- ==== Sys2Proof/Machine/Stimulus.lean ====
section
/-! DEFINITION. The stimulus notation: script lines as port cycles, and the pseudo-operations `FRAME` and `IDLE n`
(30_encoding.md R70 to R72). -/

namespace Sys2Proof.Machine

/-- One line of a stimulus script (30_encoding.md R70). -/
inductive StimulusLine where
  | reset
  | edge (level : Level) (et : Elapsed)
  | idle
  | poll
deriving DecidableEq, Repr

/-- The port cycle of a script line (30_encoding.md R70). -/
def StimulusLine.cycle : StimulusLine → PortCycle
  | .reset => ⟨resetWord, false⟩
  | .edge level et => ⟨edgeWord level et, false⟩
  | .idle => ⟨idleWord, false⟩
  | .poll => ⟨idleWord, true⟩

/-- The pseudo-operation `IDLE n` (30_encoding.md R72). -/
def idleLines (n : Nat) : List StimulusLine := List.replicate n .idle

/-- Which time an edge of a frame carries: the first edge's, half a bit's, or a full bit's (30_encoding.md R71 step 5). -/
inductive Gap where
  | first
  | half
  | full
deriving DecidableEq, Repr

/-- The bits b1 to b14 of a frame of the word `v`, b1 = `v[13]` first (20_memory.md R41). -/
def frameBits (v : CmdWord) : List Bool := (List.range 14).map fun k => v.getLsbD (13 - k)

/-- A bit as two half-bit levels: a 1 is low then high, a 0 high then low (30_encoding.md R71 step 1). -/
def halfLevels : Bool → List Level
  | true => [.low, .high]
  | false => [.high, .low]

/-- The time an edge carries when `since` half bits have passed since the previous emitted edge, if there was one
(30_encoding.md R71 step 5). -/
def gapOf : Option Nat → Gap
  | none => .first
  | some 1 => .half
  | some _ => .full

/-- The edges of a run of half-bit levels: one wherever the level differs from the one before it. `since` counts the half
bits passed since the previous emitted edge at the level before the first of the list (30_encoding.md R71 step 3). -/
def edgesOf (prev : Level) (since : Option Nat) : List Level → List (Level × Gap)
  | [] => []
  | h :: hs =>
    if h = prev then edgesOf h (since.map (· + 1)) hs
    else (h, gapOf (since.map (· + 1))) :: edgesOf h (some 0) hs

/-- The edges of a frame without their times: the line is at h1 before the frame, so there is no edge there, and returns to
low after it (30_encoding.md R71 steps 2 to 4). -/
def frameShape (v : CmdWord) : List (Level × Gap) :=
  match (frameBits v).flatMap halfLevels ++ [Level.low] with
  | [] => []
  | h1 :: hs => edgesOf h1 none hs

/-- `FRAME b1...b14 first=f short=s long=l` (30_encoding.md R71). -/
def frameLines (v : CmdWord) (f s l : Elapsed) : List StimulusLine :=
  (frameShape v).map fun e =>
    match e.2 with
    | .first => .edge e.1 f
    | .half => .edge e.1 s
    | .full => .edge e.1 l

end Sys2Proof.Machine
end

