-- ==== Sys2Proof/WellFormed.lean ====
section
/-! DEFINITION. Which instruction terms the opcode table describes. The operations at the ports have no ill-formed
operand (30_encoding.md R64); the rows of the pure functions state value ranges (30_encoding.md R63). -/

namespace Sys2Proof

/-- The operand lies in the range its row of the opcode table states: `classify.SHORT`, `classify.LONG` and
`classify.INVALID` by the ranges of 40_timing_classifier.md R80; `event` is not defined for INVALID (R85). Every other
row takes any operand. -/
def Instr.wf : Instr → Bool
  | .classifyShort et => decide (Config.tShortMin ≤ et.toNat ∧ et.toNat ≤ Config.tShortMax)
  | .classifyLong et => decide (Config.tLongMin ≤ et.toNat ∧ et.toNat ≤ Config.tLongMax)
  | .classifyInvalid et => decide (et.toNat < Config.tShortMin ∨ Config.tLongMax < et.toNat)
  | .event _ cls => decide (cls ≠ .invalid)
  | .reset | .edge _ _ | .idle | .poll
  | .edgeInert | .edgeTimingWorking | .edgeTimingInitial | .edgeFirstH | .edgeFirstL
  | .edgeS1Sh | .edgeM1Sl | .edgeM1Ll | .edgeM0Sh | .edgeM0Lh | .edgeS0Sl
  | .edgeS1ViolSl | .edgeS1ViolLl | .edgeS1ViolLh | .edgeM1ViolSh | .edgeM1ViolLh
  | .edgeM0ViolSl | .edgeM0ViolLl | .edgeS0ViolSh | .edgeS0ViolLl | .edgeS0ViolLh
  | .edgeUnreach => true

end Sys2Proof
end

