-- ==== Sys2Proof/Safety.lean ====
section
/-! DEFINITION. What statements about the block are made of: the registers and the ports of a state, the invariant of its
reachable states, what an operation may have done, and runs. -/

namespace Sys2Proof

open Machine

/-- The four registers, the block's whole architectural state (10_state.md R20). -/
structure Regs where
  cw : CmdWord
  cnt : Fin 15
  phase : Phase
  ready : Bool
deriving DecidableEq, Repr

/-- The registers of a state. -/
def regsOf (s : State) : Regs := ⟨s.cw, s.cnt, s.phase, s.ready⟩

/-- The registers after `RESET` and after every abandonment (10_state.md R32). -/
def resetRegs : Regs := ⟨0, 14, .initial, false⟩

/-- The outputs that depend on the registers only (30_encoding.md R56). -/
structure Ports where
  ready : Bool
  pollValid : Bool
  pollData : PollData
  edgeEn : Bool
deriving DecidableEq, Repr

/-- The outputs a state shows (30_encoding.md R56). -/
def portsOf (s : State) : Ports := ⟨readyOut s, pollValid s, pollData s, edgeEn s⟩

/-- The reachable combinations of the registers: 10_state.md R26 (`READY` = 1 exactly when `PHASE` = DONE), R27 (the bits of
`CW` below `CNT` are 0), R28 (what each phase implies), and R24 (codes 6 and 7 are never held). -/
abbrev Consistent (s : State) : Prop :=
  (s.ready = true ↔ s.phase = .done) ∧
  (∀ j, j < s.cnt.val → s.cw.getLsbD j = false) ∧
  (s.phase = .initial → s.cnt = 14 ∧ s.cw = 0) ∧
  (s.phase = .done → s.cnt = 0) ∧
  (s.phase = .midOne → s.cnt.val ≤ 13 ∧ s.cw.getLsbD s.cnt.val = true) ∧
  (s.phase = .startOne → 1 ≤ s.cnt.val ∧ s.cnt.val ≤ 13 ∧ s.cw.getLsbD s.cnt.val = true) ∧
  (s.phase = .midZero ∨ s.phase = .startZero →
    1 ≤ s.cnt.val ∧ s.cnt.val ≤ 13 ∧ s.cw.getLsbD s.cnt.val = false) ∧
  s.phase.named = true

/-- An elapsed time in the SHORT range (40_timing_classifier.md R80). -/
abbrev IsShort (et : Elapsed) : Prop := 444 ≤ et.toNat ∧ et.toNat ≤ 1333

/-- An elapsed time in the LONG range (40_timing_classifier.md R80). -/
abbrev IsLong (et : Elapsed) : Prop := 1334 ≤ et.toNat ∧ et.toNat ≤ 2222

/-- An elapsed time outside both ranges (40_timing_classifier.md R80). -/
abbrev IsInvalid (et : Elapsed) : Prop := et.toNat < 444 ∨ 2222 < et.toNat

/-- An operation on the registers left the consumer's sample and the coming inputs alone. -/
abbrev SameOutside (s t : State) : Prop := t.sample = s.sample ∧ t.inputs = s.inputs

/-- No register changed and no timer restart was asked for. -/
abbrev Unchanged (s t : State) : Prop :=
  t.cw = s.cw ∧ t.cnt = s.cnt ∧ t.phase = s.phase ∧ t.ready = s.ready ∧ t.tmrRestart = false ∧ SameOutside s t

/-- The effect of a session abandonment: the four reset values, `tmr_restart` = 0, `edge_en` = 1
(60_exceptions.md R160). -/
abbrev Abandoned (s t : State) : Prop :=
  t.cw = 0 ∧ t.cnt = 14 ∧ t.phase = .initial ∧ t.ready = false ∧ t.tmrRestart = false ∧ edgeEn t = true ∧
  SameOutside s t

/-- The phase became `p`, a timer restart was asked for, and `READY` was not written (41_edge_operation.md R96 step 9). -/
abbrev Entered (p : Phase) (s t : State) : Prop :=
  t.phase = p ∧ t.ready = s.ready ∧ t.tmrRestart = true ∧ SameOutside s t

/-- The frame completed (41_edge_operation.md R113). -/
abbrev Completed (s t : State) : Prop :=
  t.phase = .done ∧ t.ready = true ∧ t.tmrRestart = false ∧ edgeEn t = false ∧ SameOutside s t

/-- The timing violation of an `EDGE` (60_exceptions.md R156). -/
abbrev TimingViolation (s : State) (et : Elapsed) : Prop := s.phase ≠ .done ∧ IsInvalid et

/-- The protocol violation of an `EDGE`: valid timing, and no legal entry of the table (60_exceptions.md R157). -/
abbrev ProtocolViolation (s : State) (level : Level) (et : Elapsed) : Prop :=
  s.phase.working = true ∧ ∃ ev, event level (classify et) = some ev ∧ transition s.phase ev = none

/-- The overrun of an `EDGE`: a bit commit is due and the counter is 0 (41_edge_operation.md R112). -/
abbrev Overrun (s : State) (level : Level) (et : Elapsed) : Prop :=
  ∃ ev nxt, event level (classify et) = some ev ∧ transition s.phase ev = some nxt ∧ nxt.mid = true ∧ s.cnt = 0

/-- One of the three malformed-input conditions (60_exceptions.md R155). -/
abbrev Malformed (s : State) (level : Level) (et : Elapsed) : Prop :=
  TimingViolation s et ∨ ProtocolViolation s level et ∨ Overrun s level et

/-- No bit was committed (41_edge_operation.md R106, R108). -/
abbrev NoCommit (s t : State) : Prop := t.cnt = s.cnt ∧ t.cw = s.cw

/-- A 0 was committed: the counter went down by 1, `CW` was not written (41_edge_operation.md R110). -/
abbrev CommittedZero (s t : State) : Prop := t.cnt.val + 1 = s.cnt.val ∧ t.cw = s.cw

/-- A 1 was committed: the counter went down by 1, and of `CW` exactly the bit at its new value was set
(41_edge_operation.md R111). -/
abbrev CommittedOne (s t : State) : Prop :=
  t.cnt.val + 1 = s.cnt.val ∧
  ∀ j, j < 14 → t.cw.getLsbD j = (s.cw.getLsbD j || decide (j = t.cnt.val))

/-- `k` clock cycles. -/
def runSteps (k : Nat) (s : State) : Result := Host.Core.run Sys2Proof.core k s

/-- The elapsed times that fit an edge of a frame: the first anything valid, SHORT where half a bit has passed, LONG where a
full bit has (41_edge_operation.md R122 (a)). -/
abbrev Gap.fits : Gap → Elapsed → Prop
  | .first, et => IsShort et ∨ IsLong et
  | .half, et => IsShort et
  | .full, et => IsLong et

/-- The edges are those of a frame of `v` with fitting times (30_encoding.md R71, 41_edge_operation.md R122 (a)). -/
def IsFrame (v : CmdWord) (edges : List (Level × Elapsed)) : Prop :=
  List.Forall₂ (fun e x => x.1 = e.1 ∧ Gap.fits e.2 x.2) (frameShape v) edges

/-- The cycle in which the environment presents an edge and nothing else (30_encoding.md R70). -/
def edgeCycle (e : Level × Elapsed) : PortCycle := ⟨edgeWord e.1 e.2, false⟩

end Sys2Proof
end

