-- ==== Sys2Proof/Certificates/Slice0/Obligations.lean ====
section
/-! DEFINITION. The statements for the provers. `cause` and `wires` are the model's own (log 5, log 6): statements about
the block name registers, outputs, the consumer's sample and the coming inputs only. "Spec's choice D<n>" marks a
statement that rests on a decision of the spec's own (92_eei_decisions.md), "spec's inference" one that rests on a rule
the spec marks as derived. -/

open Sys2Proof Sys2Proof.Machine

/-! ### Encoding -/

/-- Decode and encode agree (30_encoding.md R57, R58, R60 to R62): the word written for a well-formed operation, with
every operand, decodes to it; exactly the rows without a bit pattern have no word (R63). -/
def Obligations.DecodeOfEncodeGivesTheInstruction : Prop :=
  (∀ i w, i.wf = true → encode i = some w → decode w = .ok i) ∧
  ∀ i, encode i = none ↔
    (∃ et, i = .classifyShort et) ∨ (∃ et, i = .classifyLong et) ∨ (∃ et, i = .classifyInvalid et) ∨
      ∃ level cls, i = .event level cls

/-- 30_encoding.md R58, with the fields read off the word as a number. Spec's choice D2 (both request bits set). -/
def Obligations.RequestWordSelectsOneOperation : Prop :=
  ∀ w : ReqWord,
    (2 ^ 66 ≤ w.toNat → decode (.req w) = .ok .reset) ∧
    (w.toNat < 2 ^ 65 → decode (.req w) = .ok .idle) ∧
    (2 ^ 65 ≤ w.toNat → w.toNat < 2 ^ 66 →
      ∃ level et, decode (.req w) = .ok (.edge level et) ∧ et.toNat = w.toNat % 2 ^ 64 ∧
        (level = .high ↔ 2 ^ 65 + 2 ^ 64 ≤ w.toNat))

/-- 30_encoding.md R61: the rows of the dispatch map "do not overlap and leave nothing out". Spec's choices D4 and D5
(the codes the patterns are written in). -/
def Obligations.DispatchRowsPartitionTheWords : Prop :=
  (∀ w : DspWord, dspTable.countP (fun r => r.fits w) = 1) ∧
  (∀ w : DspWord, ∃ i, decode (.dsp w) = .ok i)

/-- Words written out from 30_encoding.md R70 and 95_test_vectors.md V11 decode to what they stand for. Spec's choices
D1, D4, D5 (the layouts). -/
def Obligations.WrittenWordsDecode : Prop :=
  decode (.req 0x40000000000000000#67) = .ok .reset ∧
  decode (.req 0x30000000000000379#67) = .ok (.edge .high 889) ∧
  decode (.req 0x200000000000006F2#67) = .ok (.edge .low 1778) ∧
  decode (.req 0x00000000000000000#67) = .ok .idle ∧
  decode (.rsp 0x13541#17) = .ok .poll ∧
  decode (.dsp 0x1C#6) = .ok .edgeFirstH ∧
  decode (.dsp 0x1A#6) = .ok .edgeM0Lh ∧
  decode (.dsp 0x2C#6) = .ok .edgeTimingInitial ∧
  decode (.dsp 0x25#6) = .ok .edgeInert

/-! ### One step -/

/-- What a step adds around `exec`: the cycle is taken off the input list; a sample made in a cycle with another request
is taken before it; an idle cycle with a sample is `POLL`; an empty list is an idle cycle (log 1, log 16). The model's
choice where it names the input list and the sample. -/
def Obligations.StepRunsTheDecodedOperation : Prop :=
  (∀ s w rest i, s.inputs = ⟨w, false⟩ :: rest → decode (.req w) = .ok i →
    step s = exec i { s with inputs := rest }) ∧
  (∀ s w rest i, s.inputs = ⟨w, true⟩ :: rest → decode (.req w) = .ok i → i ≠ .idle →
    step s = exec i { s with inputs := rest, sample := rspWord s }) ∧
  (∀ s w rest, s.inputs = ⟨w, true⟩ :: rest → decode (.req w) = .ok .idle →
    step s = exec .poll { s with inputs := rest, sample := rspWord s }) ∧
  (∀ s, s.inputs = [] → step s = exec .idle s)

/-- The step function is "total on every state and every request word" (42_reset_poll_idle.md R140), whatever the
environment presents and for as long as it does. Spec's choice D2; the input list is the model's (log 1). -/
def Obligations.EveryRunGoesOn : Prop :=
  ∀ k s, ∃ t, runSteps k s = .next t ∧ t.inputs = s.inputs.drop k

/-! ### RESET, IDLE, POLL -/

/-- 42_reset_poll_idle.md R141, in every phase and from registers of any value. Spec's choice D12 (`tmr_restart` = 0).
-/
def Obligations.ResetWritesTheFourRegisters : Prop :=
  ∀ s, ∃ t, exec .reset s = .next t ∧
    t.cnt = 14 ∧ t.cw = 0 ∧ t.phase = .initial ∧ t.ready = false ∧
    t.tmrRestart = false ∧ edgeEn t = true ∧ rspWord t = 0 ∧ SameOutside s t

/-- 42_reset_poll_idle.md R142: two `RESET`s leave what one leaves; the effect is the same in every phase; an
abandonment inside `EDGE`, whatever its cause, has the register effect of `RESET`. -/
def Obligations.ResetIsIdempotentAndIsTheAbandonment : Prop :=
  (∀ s t, exec .reset s = .next t → exec .reset t = .next t) ∧
  (∀ s s', ∃ t t', exec .reset s = .next t ∧ exec .reset s' = .next t' ∧ regsOf t = regsOf t') ∧
  ∀ s level et, Malformed s level et →
    ∃ t u, exec (.edge level et) s = .next t ∧ exec .reset s = .next u ∧ regsOf t = regsOf u

/-- 42_reset_poll_idle.md R146: a cycle with both requests is `RESET`; the edge is not taken as a first edge. Spec's
choice D2. -/
def Obligations.ResetWithAnEdgeDropsTheEdge : Prop :=
  ∀ s w sample rest, s.inputs = ⟨w, sample⟩ :: rest → 2 ^ 66 + 2 ^ 65 ≤ w.toNat →
    ∃ t, step s = .next t ∧ regsOf t = resetRegs ∧ t.tmrRestart = false ∧ t.inputs = rest

/-- 42_reset_poll_idle.md R143, one cycle. Spec's choice D2. -/
def Obligations.IdleWritesNoRegister : Prop :=
  ∀ s, ∃ t, exec .idle s = .next t ∧ Unchanged s t

/-- 42_reset_poll_idle.md R143: any number of idle cycles, whatever the ignored bits, in any phase, changes nothing.
Spec's choice D2; the input list is the model's (log 1). -/
def Obligations.AnyNumberOfIdleCyclesChangesNothing : Prop :=
  ∀ n s, (∀ c ∈ s.inputs.take n, c.sample = false ∧ c.req.toNat < 2 ^ 65) →
    ∃ t, runSteps n s = .next t ∧ regsOf t = regsOf s ∧ t.sample = s.sample ∧ t.inputs = s.inputs.drop n

/-- 42_reset_poll_idle.md R145 with the layout of 30_encoding.md R62. Spec's choice D13; where the word goes is the
model's (log 3). -/
def Obligations.PollTakesTheResponseWord : Prop :=
  ∀ s, ∃ t, exec .poll s = .next t ∧
    t.sample.getLsbD 16 = s.ready ∧
    (∀ j, j < 14 → t.sample.getLsbD j = (s.ready && s.cw.getLsbD j)) ∧
    t.sample.getLsbD 14 = false ∧ t.sample.getLsbD 15 = false ∧
    regsOf t = regsOf s ∧ t.tmrRestart = false ∧ t.inputs = s.inputs

/-- 60_exceptions.md R159: a `POLL` while `READY` = 0 takes "no command available" (valid bit and data all 0), changes
no register and abandons nothing. That the data is 0 is 42_reset_poll_idle.md R145 (spec's choice D13), that
`tmr_restart` = 0 is 41_edge_operation.md R114 (spec's choice D12); where the word goes is the model's (log 3). -/
def Obligations.StaleReadIsNoError : Prop :=
  ∀ s, s.ready = false → ∃ t, exec .poll s = .next t ∧ t.sample = 0 ∧ regsOf t = regsOf s ∧ t.tmrRestart = false ∧
    edgeEn t = edgeEn s ∧ t.inputs = s.inputs

/-- 20_memory.md R49, 42_reset_poll_idle.md R145: a sample in the cycle of any request sees the state as the earlier
cycles left it, and none of the effect of the request of its own cycle; the request has its effect all the same. Spec's
choice D2; where the word goes is the model's (log 3, log 16). -/
def Obligations.SampleSeesTheStateBeforeTheCycle : Prop :=
  ∀ s w rest, s.inputs = ⟨w, true⟩ :: rest →
    ∃ t u, step s = .next t ∧ t.sample = rspWord s ∧
      step { s with inputs := ⟨w, false⟩ :: rest } = .next u ∧ regsOf t = regsOf u ∧ t.tmrRestart = u.tmrRestart

/-- 20_memory.md R47, 41_edge_operation.md R97: after completion everything but `RESET` leaves the registers, so every
`POLL` gives the same word until the next `RESET`. That an edge in DONE changes nothing is the spec's choice D9, that it
and every other cycle asks for no timer restart its choice D12 (41_edge_operation.md R114); where a sampled word goes is
the model's (log 3), and so is the input list (log 1). -/
def Obligations.PolledWordStaysUntilReset : Prop :=
  ∀ k s, s.phase = .done → (∀ c ∈ s.inputs, decode (.req c.req) ≠ .ok .reset) →
    ∃ t, runSteps k s = .next t ∧ regsOf t = regsOf s ∧ rspWord t = rspWord s ∧
      (t.sample = s.sample ∨ t.sample = rspWord s) ∧ (1 ≤ k → t.tmrRestart = false)

/-- 70_reset_and_hazards.md R197: DONE is the only phase in which every request but `RESET` leaves the registers
unchanged; and DONE is left by `RESET` only (42_reset_poll_idle.md R144). Spec's inference. -/
def Obligations.OnlyDoneIgnoresEveryRequestButReset : Prop :=
  (∀ s, (∀ i t, (i = .idle ∨ i = .poll ∨ ∃ level et, i = .edge level et) → exec i s = .next t → regsOf t = regsOf s) ↔
    s.phase = .done) ∧
  ∀ s t w sample rest, s.inputs = ⟨w, sample⟩ :: rest → s.phase = .done → step s = .next t → t.phase ≠ .done →
    decode (.req w) = .ok .reset

/-! ### The classifier, the event code, the table -/

/-- 40_timing_classifier.md R80: the three ranges, for every 64-bit time; what the result drives onto `DSP[5:4]`; no
flag and no register is written by the function; `EDGE` abandons when the result is INVALID and the phase is not DONE.
-/
def Obligations.ClassifierRanges : Prop :=
  (∀ et, (classify et = .short ↔ IsShort et) ∧ (classify et = .long ↔ IsLong et) ∧
    (classify et = .invalid ↔ IsInvalid et)) ∧
  (∀ et level p, ((dspWord (wiresOf (classify et) level) p).getLsbD 5 = true ↔ IsInvalid et) ∧
    ((dspWord (wiresOf (classify et) level) p).getLsbD 4 = true ↔ IsLong et)) ∧
  (∀ s et i, i = .classifyShort et ∨ i = .classifyLong et ∨ i = .classifyInvalid et →
    ∃ t, exec i s = .next t ∧ regsOf t = regsOf s) ∧
  ∀ s level et, s.phase ≠ .done → classify et = .invalid →
    ∃ t, exec (.edge level et) s = .next t ∧ Abandoned s t

/-- 40_timing_classifier.md R82: every bound is inclusive, and the set of valid times is one interval. -/
def Obligations.ClassifierBoundsAreInclusive : Prop :=
  classify 443 = .invalid ∧ classify 444 = .short ∧ classify 1333 = .short ∧
  classify 1334 = .long ∧ classify 2222 = .long ∧ classify 2223 = .invalid ∧
  ∀ et, classify et ≠ .invalid ↔ 444 ≤ et.toNat ∧ et.toNat ≤ 2222

/-- 40_timing_classifier.md R84: the ends of the domain, no truncation, and the counts of the three classes. Spec's
inference. -/
def Obligations.ClassifierCountsAndEnds : Prop :=
  classify 0 = .invalid ∧ classify (BitVec.ofNat 64 (2 ^ 64 - 1)) = .invalid ∧
  classify (BitVec.ofNat 64 (2 ^ 32 + 889)) = .invalid ∧
  (∀ et : Elapsed, 2223 ≤ et.toNat → classify et = .invalid) ∧
  Set.ncard {et | classify et = .short} = 890 ∧
  Set.ncard {et | classify et = .long} = 889 ∧
  Set.ncard {et | classify et = .invalid} = 2 ^ 64 - 1779

/-- 40_timing_classifier.md R85: `ev` = level + 2 for LONG; every pair of operands has one code and every code one pair.
Spec's choice D5 (the bit positions). -/
def Obligations.EventCodeNumbersTheFourPairs : Prop :=
  (∀ level cls, cls ≠ .invalid → ∃ ev, event level cls = some ev ∧
    ev.number.toNat = (if level = .high then 1 else 0) + (if cls = .long then 2 else 0)) ∧
  (∀ n : BitVec 2, ∃ level cls ev, event level cls = some ev ∧ ev.number = n) ∧
  ∀ level cls level' cls' ev, event level cls = some ev → event level' cls' = some ev → level = level' ∧ cls = cls'

/-- 40_timing_classifier.md R80, R83: the classifier's rows drive `inv` and `long` from `et` alone and write no register
(the wires are the model's; log 6). -/
def Obligations.ClassifierRowsDriveTheirWires : Prop :=
  (∀ s et, IsShort et → ∃ t, exec (.classifyShort et) s = .next t ∧ t.wires.inv = false ∧ t.wires.long = false ∧
    t = { s with wires := t.wires } ∧ t.wires.level = s.wires.level) ∧
  (∀ s et, IsLong et → ∃ t, exec (.classifyLong et) s = .next t ∧ t.wires.inv = false ∧ t.wires.long = true ∧
    t = { s with wires := t.wires } ∧ t.wires.level = s.wires.level) ∧
  (∀ s et, IsInvalid et → ∃ t, exec (.classifyInvalid et) s = .next t ∧ t.wires.inv = true ∧ t.wires.long = false ∧
    t = { s with wires := t.wires } ∧ t.wires.level = s.wires.level)

/-- 40_timing_classifier.md R85, 30_encoding.md R60: the row `event` drives `DSP[4:3]` with the event code and writes no
register (the wires are the model's; log 6). -/
def Obligations.EventRowDrivesTheEventCode : Prop :=
  ∀ s level cls, cls ≠ .invalid → ∃ t ev, exec (.event level cls) s = .next t ∧ event level cls = some ev ∧
    (dspWord t.wires t.phase).extractLsb' 3 2 = ev.number ∧
    t = { s with wires := t.wires } ∧ t.wires.inv = s.wires.inv

/-- 41_edge_operation.md R101: the SHORT law and the LONG law, and no entry of the table besides theirs. -/
def Obligations.TableObeysTheTwoLaws : Prop :=
  (∀ p nxt, (∃ level ev, event level .short = some ev ∧ transition p ev = some nxt) ↔
    (p = .midOne ∧ nxt = .startOne) ∨ (p = .startOne ∧ nxt = .midOne) ∨
    (p = .midZero ∧ nxt = .startZero) ∨ (p = .startZero ∧ nxt = .midZero)) ∧
  (∀ p nxt, (∃ level ev, event level .long = some ev ∧ transition p ev = some nxt) ↔
    (p = .midOne ∧ nxt = .midZero) ∨ (p = .midZero ∧ nxt = .midOne))

/-- 41_edge_operation.md R102: the packed bytes give the table; an entry equal to the row's own phase is a violation,
and no legal entry is a self-loop. Spec's inference, with D4 and D7. -/
def Obligations.PackedTableGivesTheTransitionTable : Prop :=
  ∀ p ev, p.working = true →
    (transition p ev = none ↔ (packedNext p ev).toNat = p.code.toNat) ∧
    ∀ nxt, transition p ev = some nxt → nxt ≠ p ∧ (packedNext p ev).toNat = nxt.code.toNat

/-! ### The dispatch cases of EDGE: the operation in its phase, and the case on its own

A case on its own does not look again at the phase, the class and the level its pattern has examined, so its clause holds in
every phase: that is the model's choice (log 11). -/

/-- 41_edge_operation.md R97: an edge in DONE is inert, whatever its operands. Spec's choice D9. -/
def Obligations.EdgeInDoneIsInert : Prop :=
  (∀ s level et, s.phase = .done → ∃ t, exec (.edge level et) s = .next t ∧ Unchanged s t ∧ edgeEn t = false) ∧
  (∀ s, ∃ t, exec .edgeInert s = .next t ∧ Unchanged s t) ∧
  ∀ w : DspWord, w.extractLsb' 0 3 = 5#3 → decode (.dsp w) = .ok .edgeInert

/-- 41_edge_operation.md R98: INVALID timing in any phase but DONE abandons the session. Spec's choice D8 (INITIAL
included). -/
def Obligations.InvalidTimingAbandons : Prop :=
  (∀ s level et, s.phase ≠ .done → IsInvalid et → ∃ t, exec (.edge level et) s = .next t ∧ Abandoned s t) ∧
  (∀ s, ∃ t, exec .edgeTimingWorking s = .next t ∧ Abandoned s t) ∧
  (∀ s, ∃ t, exec .edgeTimingInitial s = .next t ∧ Abandoned s t) ∧
  (∀ w : DspWord, w.getLsbD 5 = true → w.getLsbD 2 = false → decode (.dsp w) = .ok .edgeTimingWorking) ∧
  ∀ w : DspWord, w.getLsbD 5 = true → w.extractLsb' 0 3 = 4#3 → decode (.dsp w) = .ok .edgeTimingInitial

/-- 41_edge_operation.md R103: a first edge to high, SHORT and LONG alike. Spec's choices D6, D20. -/
def Obligations.FirstEdgeToHigh : Prop :=
  (∀ s et, s.phase = .initial → IsShort et ∨ IsLong et →
    ∃ t, exec (.edge .high et) s = .next t ∧ Entered .midOne s t ∧ t.cnt = 13 ∧
      ∀ j, j < 14 → t.cw.getLsbD j = (s.cw.getLsbD j || decide (j = 13))) ∧
  (∀ s, ∃ t, exec .edgeFirstH s = .next t ∧ Entered .midOne s t ∧ t.cnt = 13 ∧
      ∀ j, j < 14 → t.cw.getLsbD j = (s.cw.getLsbD j || decide (j = 13))) ∧
  ∀ w : DspWord, w.getLsbD 5 = false → w.extractLsb' 0 4 = 0b1100#4 → decode (.dsp w) = .ok .edgeFirstH

/-- 41_edge_operation.md R104: a first edge to low, SHORT and LONG alike. Spec's choices D6, D20. -/
def Obligations.FirstEdgeToLow : Prop :=
  (∀ s et, s.phase = .initial → IsShort et ∨ IsLong et →
    ∃ t, exec (.edge .low et) s = .next t ∧ Entered .midZero s t ∧ t.cnt = 13 ∧ t.cw = s.cw) ∧
  (∀ s, ∃ t, exec .edgeFirstL s = .next t ∧ Entered .midZero s t ∧ t.cnt = 13 ∧ t.cw = s.cw) ∧
  ∀ w : DspWord, w.getLsbD 5 = false → w.extractLsb' 0 4 = 0b0100#4 → decode (.dsp w) = .ok .edgeFirstL

/-- 41_edge_operation.md R105: START_ONE, SHORT to high, commits a 1 and never completes. Spec's choice D7 (the table).
-/
def Obligations.StartOneShortHighCommitsOne : Prop :=
  (∀ s et, s.phase = .startOne → IsShort et → 1 ≤ s.cnt.val →
    ∃ t, exec (.edge .high et) s = .next t ∧ Entered .midOne s t ∧ CommittedOne s t) ∧
  (∀ s, 1 ≤ s.cnt.val → ∃ t, exec .edgeS1Sh s = .next t ∧ Entered .midOne s t ∧ CommittedOne s t) ∧
  decode (.dsp 0b001000#6) = .ok .edgeS1Sh

/-- 41_edge_operation.md R106: MID_ONE, SHORT to low, confirms, or completes the frame when `CNT` = 0. Spec's choice D7
(the table). -/
def Obligations.MidOneShortLowConfirmsOrCompletes : Prop :=
  (∀ s et, s.phase = .midOne → IsShort et →
    ∃ t, exec (.edge .low et) s = .next t ∧ NoCommit s t ∧
      if s.cnt = 0 then Completed s t else Entered .startOne s t) ∧
  (∀ s, ∃ t, exec .edgeM1Sl s = .next t ∧ NoCommit s t ∧
      if s.cnt = 0 then Completed s t else Entered .startOne s t) ∧
  decode (.dsp 0b000001#6) = .ok .edgeM1Sl

/-- 41_edge_operation.md R107: MID_ONE, LONG to low, commits a 0; overrun when `CNT` = 0, completion when it becomes 0.
Spec's choices D7 (the table), D10 (the overrun). -/
def Obligations.MidOneLongLowCommitsZero : Prop :=
  (∀ s et, s.phase = .midOne → IsLong et →
    ∃ t, exec (.edge .low et) s = .next t ∧
      if s.cnt = 0 then Abandoned s t
      else CommittedZero s t ∧ if s.cnt.val = 1 then Completed s t else Entered .midZero s t) ∧
  (∀ s, ∃ t, exec .edgeM1Ll s = .next t ∧
      if s.cnt = 0 then Abandoned s t
      else CommittedZero s t ∧ if s.cnt.val = 1 then Completed s t else Entered .midZero s t) ∧
  decode (.dsp 0b010001#6) = .ok .edgeM1Ll

/-- 41_edge_operation.md R108: MID_ZERO, SHORT to high, confirms and never completes. Spec's choice D7 (the table). -/
def Obligations.MidZeroShortHighConfirms : Prop :=
  (∀ s et, s.phase = .midZero → IsShort et →
    ∃ t, exec (.edge .high et) s = .next t ∧ NoCommit s t ∧ Entered .startZero s t) ∧
  (∀ s, ∃ t, exec .edgeM0Sh s = .next t ∧ NoCommit s t ∧ Entered .startZero s t) ∧
  decode (.dsp 0b001010#6) = .ok .edgeM0Sh

/-- 41_edge_operation.md R109: MID_ZERO, LONG to high, commits a 1 and never completes. Spec's choice D7 (the table). -/
def Obligations.MidZeroLongHighCommitsOne : Prop :=
  (∀ s et, s.phase = .midZero → IsLong et → 1 ≤ s.cnt.val →
    ∃ t, exec (.edge .high et) s = .next t ∧ Entered .midOne s t ∧ CommittedOne s t) ∧
  (∀ s, 1 ≤ s.cnt.val → ∃ t, exec .edgeM0Lh s = .next t ∧ Entered .midOne s t ∧ CommittedOne s t) ∧
  decode (.dsp 0b011010#6) = .ok .edgeM0Lh

/-- 41_edge_operation.md R115: START_ZERO, SHORT to low, commits a 0 and completes when `CNT` becomes 0. Spec's choice
D7 (the table). -/
def Obligations.StartZeroShortLowCommitsZero : Prop :=
  (∀ s et, s.phase = .startZero → IsShort et → 1 ≤ s.cnt.val →
    ∃ t, exec (.edge .low et) s = .next t ∧ CommittedZero s t ∧
      if s.cnt.val = 1 then Completed s t else Entered .midZero s t) ∧
  (∀ s, 1 ≤ s.cnt.val → ∃ t, exec .edgeS0Sl s = .next t ∧ CommittedZero s t ∧
      if s.cnt.val = 1 then Completed s t else Entered .midZero s t) ∧
  decode (.dsp 0b000011#6) = .ok .edgeS0Sl

/-- 41_edge_operation.md R116: the three violations of START_ONE. Spec's choice D7 (the table). -/
def Obligations.StartOneViolations : Prop :=
  (∀ s level et, s.phase = .startOne → (IsShort et ∧ level = .low) ∨ IsLong et →
    ∃ t, exec (.edge level et) s = .next t ∧ Abandoned s t) ∧
  (∀ s i, i = .edgeS1ViolSl ∨ i = .edgeS1ViolLl ∨ i = .edgeS1ViolLh → ∃ t, exec i s = .next t ∧ Abandoned s t) ∧
  decode (.dsp 0b000000#6) = .ok .edgeS1ViolSl ∧ decode (.dsp 0b010000#6) = .ok .edgeS1ViolLl ∧
  decode (.dsp 0b011000#6) = .ok .edgeS1ViolLh

/-- 41_edge_operation.md R117: the two violations of MID_ONE. Spec's choice D7 (the table). -/
def Obligations.MidOneViolations : Prop :=
  (∀ s et, s.phase = .midOne → IsShort et ∨ IsLong et →
    ∃ t, exec (.edge .high et) s = .next t ∧ Abandoned s t) ∧
  (∀ s i, i = .edgeM1ViolSh ∨ i = .edgeM1ViolLh → ∃ t, exec i s = .next t ∧ Abandoned s t) ∧
  decode (.dsp 0b001001#6) = .ok .edgeM1ViolSh ∧ decode (.dsp 0b011001#6) = .ok .edgeM1ViolLh

/-- 41_edge_operation.md R118: the two violations of MID_ZERO. Spec's choice D7 (the table). -/
def Obligations.MidZeroViolations : Prop :=
  (∀ s et, s.phase = .midZero → IsShort et ∨ IsLong et →
    ∃ t, exec (.edge .low et) s = .next t ∧ Abandoned s t) ∧
  (∀ s i, i = .edgeM0ViolSl ∨ i = .edgeM0ViolLl → ∃ t, exec i s = .next t ∧ Abandoned s t) ∧
  decode (.dsp 0b000010#6) = .ok .edgeM0ViolSl ∧ decode (.dsp 0b010010#6) = .ok .edgeM0ViolLl

/-- 41_edge_operation.md R119: the three violations of START_ZERO. Spec's choice D7 (the table). -/
def Obligations.StartZeroViolations : Prop :=
  (∀ s level et, s.phase = .startZero → (IsShort et ∧ level = .high) ∨ IsLong et →
    ∃ t, exec (.edge level et) s = .next t ∧ Abandoned s t) ∧
  (∀ s i, i = .edgeS0ViolSh ∨ i = .edgeS0ViolLl ∨ i = .edgeS0ViolLh → ∃ t, exec i s = .next t ∧ Abandoned s t) ∧
  decode (.dsp 0b001011#6) = .ok .edgeS0ViolSh ∧ decode (.dsp 0b010011#6) = .ok .edgeS0ViolLl ∧
  decode (.dsp 0b011011#6) = .ok .edgeS0ViolLh

/-- 41_edge_operation.md R120: what the hardware does in phase codes 6 and 7 (the model can write them down: log 7).
Spec's choice D21. -/
def Obligations.UnreachableCodesAbandon : Prop :=
  (∀ s level et, s.phase = .code6 ∨ s.phase = .code7 →
    ∃ t, exec (.edge level et) s = .next t ∧ Abandoned s t) ∧
  (∀ s, ∃ t, exec .edgeUnreach s = .next t ∧ Abandoned s t) ∧
  ∀ w : DspWord, w.getLsbD 2 = true → w.getLsbD 1 = true → decode (.dsp w) = .ok .edgeUnreach

/-! ### EDGE as a whole -/

/-- 41_edge_operation.md R110: entering MID_ZERO commits a 0, in the operation and in its two cases, and so does a first
edge to low. -/
def Obligations.EnteringMidZeroCommitsZero : Prop :=
  (∀ s level et ev, event level (classify et) = some ev → transition s.phase ev = some .midZero → 1 ≤ s.cnt.val →
    ∃ t, exec (.edge level et) s = .next t ∧ CommittedZero s t ∧ SameOutside s t) ∧
  (∀ s i, (i = .edgeM1Ll ∧ s.phase = .midOne) ∨ (i = .edgeS0Sl ∧ s.phase = .startZero) → 1 ≤ s.cnt.val →
    ∃ t, exec i s = .next t ∧ CommittedZero s t ∧ SameOutside s t) ∧
  ∀ s et, s.phase = .initial → s.cnt = 14 → IsShort et ∨ IsLong et →
    ∃ t, exec (.edge .low et) s = .next t ∧ t.cnt = 13 ∧ CommittedZero s t ∧ SameOutside s t

/-- 41_edge_operation.md R111: entering MID_ONE commits a 1, in the operation and in its two cases, and so does a first
edge to high; in a consistent state the bit that is set was 0 before. -/
def Obligations.EnteringMidOneCommitsOne : Prop :=
  (∀ s level et ev, event level (classify et) = some ev → transition s.phase ev = some .midOne → 1 ≤ s.cnt.val →
    ∃ t, exec (.edge level et) s = .next t ∧ CommittedOne s t ∧ SameOutside s t ∧ t.cnt.val ≤ 13 ∧
      (Consistent s → s.cw.getLsbD t.cnt.val = false)) ∧
  (∀ s i, (i = .edgeS1Sh ∧ s.phase = .startOne) ∨ (i = .edgeM0Lh ∧ s.phase = .midZero) → 1 ≤ s.cnt.val →
    ∃ t, exec i s = .next t ∧ CommittedOne s t ∧ SameOutside s t) ∧
  ∀ s et, s.phase = .initial → s.cnt = 14 → IsShort et ∨ IsLong et →
    ∃ t, exec (.edge .high et) s = .next t ∧ t.cnt = 13 ∧ CommittedOne s t ∧ SameOutside s t

/-- 60_exceptions.md R160: an `EDGE` that raises any of the three causes writes the four reset values and nothing else,
`tmr_restart` = 0, `edge_en` = 1; and in a named phase (10_state.md R23) nothing else brings an `EDGE` to INITIAL. -/
def Obligations.EveryMalformedInputAbandons : Prop :=
  (∀ s level et, Malformed s level et → ∃ t, exec (.edge level et) s = .next t ∧ Abandoned s t) ∧
  ∀ s level et t, s.phase.named = true → exec (.edge level et) s = .next t → t.phase = .initial → Malformed s level et

/-- 41_edge_operation.md R112: a bit commit that finds `CNT` = 0 abandons, in each of the four cases that commit a bit.
Spec's choice D10; three of the four cannot happen in a consistent state (log 10). -/
def Obligations.OverrunAbandonsInEveryCommittingCase : Prop :=
  ∀ s i, s.cnt = 0 → i = .edgeS1Sh ∨ i = .edgeM1Ll ∨ i = .edgeM0Lh ∨ i = .edgeS0Sl →
    ∃ t, exec i s = .next t ∧ Abandoned s t

/-- The ordered procedure of 41_edge_operation.md R96 and the dispatch map of 30_encoding.md R61 with its cases' own
rules are the same operation: an `EDGE` has exactly the effect of the case its dispatch word names (R60), in every
state. Spec's choices D4, D5, D7, D21 stand on both sides; the wires are the model's (log 6). -/
def Obligations.EdgeIsTheCaseItsDispatchWordNames : Prop :=
  ∀ s level et, ∃ i,
    decode (.dsp (BitVec.ofBool (decide (IsInvalid et)) ++ BitVec.ofBool (decide (IsLong et)) ++
      BitVec.ofBool level.bit ++ s.phase.code)) = .ok i ∧
    exec (.edge level et) s =
      exec i { s with wires := ⟨decide (IsInvalid et), decide (IsLong et), level.bit⟩ }

/-- 41_edge_operation.md R113: after an `EDGE`, `READY` has risen exactly when the counter is 0 and the table's next
phase is START_ONE or MID_ZERO; `PHASE` is then DONE, no restart is asked for and the edge source is told to stop. The
table is the spec's choice D7. -/
def Obligations.ReadyRisesOnlyAtCompletion : Prop :=
  ∀ s level et t, exec (.edge level et) s = .next t → s.ready = false → s.phase ≠ .done →
    (t.ready = true ↔ t.phase = .done) ∧
    (t.ready = true ↔ ∃ ev nxt, event level (classify et) = some ev ∧ transition s.phase ev = some nxt ∧
      ((nxt = .startOne ∧ s.cnt = 0) ∨ (nxt = .midZero ∧ s.cnt.val = 1))) ∧
    (t.ready = true → t.cnt = 0 ∧ t.tmrRestart = false ∧ edgeEn t = false)

/-- 41_edge_operation.md R114: `tmr_restart` is 1 on an `EDGE` that neither finds DONE, nor abandons, nor completes, and
0 in every other operation at the ports. Spec's choice D12. -/
def Obligations.TimerRestartExactlyOnAcceptedEdges : Prop :=
  (∀ s level et t, exec (.edge level et) s = .next t →
    (t.tmrRestart = true ↔ s.phase ≠ .done ∧ t.phase ≠ .initial ∧ t.phase ≠ .done)) ∧
  ∀ s i t, i = .reset ∨ i = .idle ∨ i = .poll → exec i s = .next t → t.tmrRestart = false

/-- 60_exceptions.md R175: an `EDGE` outside DONE either meets a malformed-input condition (or phase code 6 or 7) and has
exactly the effect of an abandonment, or it has its whole effect and no partial one: that of a first edge by its level
(41_edge_operation.md R103, R104), or the table's next phase with the bit commit it brings (R110, R111) and then
completion under exactly R113's condition, else entry. Spec's inference, over its choices D6, D7, D10, D21. -/
def Obligations.AbandonmentIsAllOrNothing : Prop :=
  ∀ s level et t, exec (.edge level et) s = .next t → s.phase ≠ .done →
    ((Malformed s level et ∨ s.phase.named = false) ∧ Abandoned s t) ∨
    (s.phase = .initial ∧ ¬IsInvalid et ∧ t.cnt = 13 ∧
      if level = .high then
        Entered .midOne s t ∧ ∀ j, j < 14 → t.cw.getLsbD j = (s.cw.getLsbD j || decide (j = 13))
      else Entered .midZero s t ∧ t.cw = s.cw) ∨
    (s.phase.working = true ∧ ∃ ev nxt, event level (classify et) = some ev ∧ transition s.phase ev = some nxt ∧
      (if nxt = .midOne then CommittedOne s t else if nxt = .midZero then CommittedZero s t else NoCommit s t) ∧
      if t.cnt = 0 ∧ (nxt = .startOne ∨ nxt = .midZero) then Completed s t else Entered nxt s t)

/-- 60_exceptions.md R174: from the ports an abandoned session is one that never started. -/
def Obligations.AbandonmentIsSilent : Prop :=
  ∀ s level et t u, exec (.edge level et) s = .next t → t.phase = .initial → exec .reset s = .next u →
    portsOf t = portsOf u ∧ portsOf t = ⟨false, false, 0, true⟩ ∧ regsOf t = regsOf u ∧ t.tmrRestart = u.tmrRestart ∧
    t.sample = s.sample

/-- 70_reset_and_hazards.md R191: the same level twice abandons the session, unless the first edge already abandoned it
or completed the frame. Spec's choice D1 (an input the edge source should not give), with D7. -/
def Obligations.RepeatedLevelAbandons : Prop :=
  ∀ s level et et' t, exec (.edge level et) s = .next t → t.phase.working = true →
    ∃ u, exec (.edge level et') t = .next u ∧ Abandoned t u

/-! ### Invariants -/

/-- 10_state.md R26 to R28: every step keeps the reachable combinations of the registers. Spec's inference (R27, R28).
-/
def Obligations.EveryStepKeepsTheRegistersConsistent : Prop :=
  ∀ s t, Consistent s → step s = .next t → Consistent t

/-- 10_state.md R26: after every operation at the ports `READY` = 1 exactly when `PHASE` = DONE, and so in every run
that begins in the reset state. -/
def Obligations.ReadyExactlyInDone : Prop :=
  (∀ s i t, (s.ready = true ↔ s.phase = .done) →
    i = .reset ∨ i = .idle ∨ i = .poll ∨ (∃ level et, i = .edge level et) →
    exec i s = .next t → (t.ready = true ↔ t.phase = .done)) ∧
  ∀ k cycles t, runSteps k { State.reset with inputs := cycles } = .next t → (t.ready = true ↔ t.phase = .done)

/-- The reset state is a reachable combination, with the values of 10_state.md R32. The model starts there (spec's
choice D3; log 12). -/
def Obligations.ResetStateIsConsistent : Prop :=
  Consistent State.reset ∧ regsOf State.reset = resetRegs ∧ portsOf State.reset = ⟨false, false, 0, true⟩

/-- 10_state.md R28, the other direction: every combination the invariant allows is reached from the reset state by some
input, so the invariant says exactly what is reachable. Spec's inference. -/
def Obligations.EveryConsistentStateIsReached : Prop :=
  ∀ s, Consistent s → ∃ cycles t,
    runSteps cycles.length { State.reset with inputs := cycles } = .next t ∧ regsOf t = regsOf s

/-- 10_state.md R27: within a session no bit of `CW` at or above `CNT` changes. Spec's inference. -/
def Obligations.AssembledBitsNeverChange : Prop :=
  ∀ s t, Consistent s → step s = .next t → t.phase ≠ .initial →
    (∀ j, s.cnt.val ≤ j → t.cw.getLsbD j = s.cw.getLsbD j) ∧ t.cnt ≤ s.cnt

/-- 60_exceptions.md R161, R162: the cause a model's trace names, in the order of the checks; an overrun is MID_ONE with
`CNT` = 0 and LONG to low (R158). The trace is the model's own (log 5). Spec's choices D8, D14. -/
def Obligations.TraceNamesTheFirstCauseThatApplies : Prop :=
  ∀ s level et t, Consistent s → exec (.edge level et) s = .next t →
    (t.cause = .timing ↔ s.phase ≠ .done ∧ IsInvalid et) ∧
    (t.cause = .overrun ↔ s.phase = .midOne ∧ s.cnt = 0 ∧ level = .low ∧ IsLong et) ∧
    (t.cause = .protocol ↔ s.phase.working = true ∧
      ∃ ev, event level (classify et) = some ev ∧ transition s.phase ev = none)

/-! ### What a consumer can learn -/

/-- 30_encoding.md R56: the outputs that depend on the registers only; 10_state.md R30: `edge_en`. Spec's choices D1,
D11. -/
def Obligations.OutputsFollowTheRegisters : Prop :=
  ∀ s, readyOut s = s.ready ∧ pollValid s = s.ready ∧
    (pollData s).toNat = (if s.ready then s.cw.toNat else 0) ∧ (edgeEn s = true ↔ s.phase ≠ .done)

/-- 00_scope.md R11: while no command is ready the ports show nothing of the session; they depend on the registers
through `READY`, `PHASE` = DONE, and `CW` only once it is published. Spec's inference. -/
def Obligations.PortsHideTheSession : Prop :=
  ∀ s s', s.ready = s'.ready → (s.phase = .done ↔ s'.phase = .done) → (s.ready = true → s.cw = s'.cw) →
    portsOf s = portsOf s'

/-- The model's own fields (trace, wires, sample) never feed back: two runs from states with the same registers under
the same inputs show the same registers and the same outputs after every cycle (60_exceptions.md R161; log 5, log 6). -/
def Obligations.ModelFieldsNeverFeedBack : Prop :=
  ∀ k s s' t t', regsOf s = regsOf s' → s.inputs = s'.inputs → runSteps k s = .next t → runSteps k s' = .next t' →
    regsOf t = regsOf t' ∧ portsOf t = portsOf t' ∧ (1 ≤ k → t.tmrRestart = t'.tmrRestart)

/-! ### Frames -/

/-- 41_edge_operation.md R122 (a): for every 14-bit value, the edges of its frame, every time anywhere in its range,
lead from the reset state to (DONE, 0, v, 1). Spec's inference over D6, D7 and the frame notation D17. -/
def Obligations.EveryWellFormedFrameDecodes : Prop :=
  ∀ v edges rest, IsFrame v edges →
    ∃ t, runSteps edges.length { State.reset with inputs := edges.map edgeCycle ++ rest } = .next t ∧
      regsOf t = ⟨v, 0, .done, true⟩ ∧ pollData t = v.zeroExtend 16 ∧ t.inputs = rest

/-- 41_edge_operation.md R122 (b), (e): no frame is published before its last edge. Spec's inference over D6, D7 and the
frame notation D17. -/
def Obligations.NoFramePublishesEarly : Prop :=
  ∀ v edges k t, IsFrame v edges → k < edges.length →
    runSteps k { State.reset with inputs := edges.map edgeCycle } = .next t → t.ready = false
end

