-- ==== Sys2Proof/Laws/State.lean ====
section
/-! SUPPORT. One lemma per field per update of the state (Machine/Ops.lean), each true by `rfl`. -/

namespace Sys2Proof.Machine

@[simp] theorem State.writeReset_cw (s : State) : s.writeReset.cw = 0 := rfl
@[simp] theorem State.writeReset_cnt (s : State) : s.writeReset.cnt = 14 := rfl
@[simp] theorem State.writeReset_phase (s : State) : s.writeReset.phase = .initial := rfl
@[simp] theorem State.writeReset_ready (s : State) : s.writeReset.ready = false := rfl
@[simp] theorem State.writeReset_tmrRestart (s : State) : s.writeReset.tmrRestart = s.tmrRestart := rfl
@[simp] theorem State.writeReset_cause (s : State) : s.writeReset.cause = s.cause := rfl
@[simp] theorem State.writeReset_sample (s : State) : s.writeReset.sample = s.sample := rfl
@[simp] theorem State.writeReset_wires (s : State) : s.writeReset.wires = s.wires := rfl
@[simp] theorem State.writeReset_inputs (s : State) : s.writeReset.inputs = s.inputs := rfl

@[simp] theorem State.quiet_cw (s : State) : s.quiet.cw = s.cw := rfl
@[simp] theorem State.quiet_cnt (s : State) : s.quiet.cnt = s.cnt := rfl
@[simp] theorem State.quiet_phase (s : State) : s.quiet.phase = s.phase := rfl
@[simp] theorem State.quiet_ready (s : State) : s.quiet.ready = s.ready := rfl
@[simp] theorem State.quiet_tmrRestart (s : State) : s.quiet.tmrRestart = false := rfl
@[simp] theorem State.quiet_cause (s : State) : s.quiet.cause = .noAbandon := rfl
@[simp] theorem State.quiet_sample (s : State) : s.quiet.sample = s.sample := rfl
@[simp] theorem State.quiet_wires (s : State) : s.quiet.wires = s.wires := rfl
@[simp] theorem State.quiet_inputs (s : State) : s.quiet.inputs = s.inputs := rfl

@[simp] theorem State.abandon_cw (c : Cause) (s : State) : (s.abandon c).cw = 0 := rfl
@[simp] theorem State.abandon_cnt (c : Cause) (s : State) : (s.abandon c).cnt = 14 := rfl
@[simp] theorem State.abandon_phase (c : Cause) (s : State) : (s.abandon c).phase = .initial := rfl
@[simp] theorem State.abandon_ready (c : Cause) (s : State) : (s.abandon c).ready = false := rfl
@[simp] theorem State.abandon_tmrRestart (c : Cause) (s : State) : (s.abandon c).tmrRestart = false := rfl
@[simp] theorem State.abandon_cause (c : Cause) (s : State) : (s.abandon c).cause = c := rfl
@[simp] theorem State.abandon_sample (c : Cause) (s : State) : (s.abandon c).sample = s.sample := rfl
@[simp] theorem State.abandon_wires (c : Cause) (s : State) : (s.abandon c).wires = s.wires := rfl
@[simp] theorem State.abandon_inputs (c : Cause) (s : State) : (s.abandon c).inputs = s.inputs := rfl

@[simp] theorem State.enter_cw (p : Phase) (s : State) : (s.enter p).cw = s.cw := rfl
@[simp] theorem State.enter_cnt (p : Phase) (s : State) : (s.enter p).cnt = s.cnt := rfl
@[simp] theorem State.enter_phase (p : Phase) (s : State) : (s.enter p).phase = p := rfl
@[simp] theorem State.enter_ready (p : Phase) (s : State) : (s.enter p).ready = s.ready := rfl
@[simp] theorem State.enter_tmrRestart (p : Phase) (s : State) : (s.enter p).tmrRestart = true := rfl
@[simp] theorem State.enter_cause (p : Phase) (s : State) : (s.enter p).cause = .noAbandon := rfl
@[simp] theorem State.enter_sample (p : Phase) (s : State) : (s.enter p).sample = s.sample := rfl
@[simp] theorem State.enter_wires (p : Phase) (s : State) : (s.enter p).wires = s.wires := rfl
@[simp] theorem State.enter_inputs (p : Phase) (s : State) : (s.enter p).inputs = s.inputs := rfl

@[simp] theorem State.complete_cw (s : State) : s.complete.cw = s.cw := rfl
@[simp] theorem State.complete_cnt (s : State) : s.complete.cnt = s.cnt := rfl
@[simp] theorem State.complete_phase (s : State) : s.complete.phase = .done := rfl
@[simp] theorem State.complete_ready (s : State) : s.complete.ready = true := rfl
@[simp] theorem State.complete_tmrRestart (s : State) : s.complete.tmrRestart = false := rfl
@[simp] theorem State.complete_cause (s : State) : s.complete.cause = .noAbandon := rfl
@[simp] theorem State.complete_sample (s : State) : s.complete.sample = s.sample := rfl
@[simp] theorem State.complete_wires (s : State) : s.complete.wires = s.wires := rfl
@[simp] theorem State.complete_inputs (s : State) : s.complete.inputs = s.inputs := rfl

@[simp] theorem State.commitZero_cw (s : State) : s.commitZero.cw = s.cw := rfl
@[simp] theorem State.commitZero_cnt (s : State) : s.commitZero.cnt = predCnt s.cnt := rfl
@[simp] theorem State.commitZero_phase (s : State) : s.commitZero.phase = s.phase := rfl
@[simp] theorem State.commitZero_ready (s : State) : s.commitZero.ready = s.ready := rfl
@[simp] theorem State.commitZero_tmrRestart (s : State) : s.commitZero.tmrRestart = s.tmrRestart := rfl
@[simp] theorem State.commitZero_cause (s : State) : s.commitZero.cause = s.cause := rfl
@[simp] theorem State.commitZero_sample (s : State) : s.commitZero.sample = s.sample := rfl
@[simp] theorem State.commitZero_wires (s : State) : s.commitZero.wires = s.wires := rfl
@[simp] theorem State.commitZero_inputs (s : State) : s.commitZero.inputs = s.inputs := rfl

@[simp] theorem State.commitOne_cw (s : State) : s.commitOne.cw = setBit s.cw (predCnt s.cnt) := rfl
@[simp] theorem State.commitOne_cnt (s : State) : s.commitOne.cnt = predCnt s.cnt := rfl
@[simp] theorem State.commitOne_phase (s : State) : s.commitOne.phase = s.phase := rfl
@[simp] theorem State.commitOne_ready (s : State) : s.commitOne.ready = s.ready := rfl
@[simp] theorem State.commitOne_tmrRestart (s : State) : s.commitOne.tmrRestart = s.tmrRestart := rfl
@[simp] theorem State.commitOne_cause (s : State) : s.commitOne.cause = s.cause := rfl
@[simp] theorem State.commitOne_sample (s : State) : s.commitOne.sample = s.sample := rfl
@[simp] theorem State.commitOne_wires (s : State) : s.commitOne.wires = s.wires := rfl
@[simp] theorem State.commitOne_inputs (s : State) : s.commitOne.inputs = s.inputs := rfl

@[simp] theorem State.firstZero_cw (s : State) : s.firstZero.cw = s.cw := rfl
@[simp] theorem State.firstZero_cnt (s : State) : s.firstZero.cnt = 13 := rfl
@[simp] theorem State.firstZero_phase (s : State) : s.firstZero.phase = s.phase := rfl
@[simp] theorem State.firstZero_ready (s : State) : s.firstZero.ready = s.ready := rfl
@[simp] theorem State.firstZero_tmrRestart (s : State) : s.firstZero.tmrRestart = s.tmrRestart := rfl
@[simp] theorem State.firstZero_cause (s : State) : s.firstZero.cause = s.cause := rfl
@[simp] theorem State.firstZero_sample (s : State) : s.firstZero.sample = s.sample := rfl
@[simp] theorem State.firstZero_wires (s : State) : s.firstZero.wires = s.wires := rfl
@[simp] theorem State.firstZero_inputs (s : State) : s.firstZero.inputs = s.inputs := rfl

@[simp] theorem State.firstOne_cw (s : State) : s.firstOne.cw = setBit s.cw 13 := rfl
@[simp] theorem State.firstOne_cnt (s : State) : s.firstOne.cnt = 13 := rfl
@[simp] theorem State.firstOne_phase (s : State) : s.firstOne.phase = s.phase := rfl
@[simp] theorem State.firstOne_ready (s : State) : s.firstOne.ready = s.ready := rfl
@[simp] theorem State.firstOne_tmrRestart (s : State) : s.firstOne.tmrRestart = s.tmrRestart := rfl
@[simp] theorem State.firstOne_cause (s : State) : s.firstOne.cause = s.cause := rfl
@[simp] theorem State.firstOne_sample (s : State) : s.firstOne.sample = s.sample := rfl
@[simp] theorem State.firstOne_wires (s : State) : s.firstOne.wires = s.wires := rfl
@[simp] theorem State.firstOne_inputs (s : State) : s.firstOne.inputs = s.inputs := rfl

@[simp] theorem State.drive_cw (w : Wires) (s : State) : (s.drive w).cw = s.cw := rfl
@[simp] theorem State.drive_cnt (w : Wires) (s : State) : (s.drive w).cnt = s.cnt := rfl
@[simp] theorem State.drive_phase (w : Wires) (s : State) : (s.drive w).phase = s.phase := rfl
@[simp] theorem State.drive_ready (w : Wires) (s : State) : (s.drive w).ready = s.ready := rfl
@[simp] theorem State.drive_tmrRestart (w : Wires) (s : State) : (s.drive w).tmrRestart = s.tmrRestart := rfl
@[simp] theorem State.drive_cause (w : Wires) (s : State) : (s.drive w).cause = s.cause := rfl
@[simp] theorem State.drive_sample (w : Wires) (s : State) : (s.drive w).sample = s.sample := rfl
@[simp] theorem State.drive_wires (w : Wires) (s : State) : (s.drive w).wires = w := rfl
@[simp] theorem State.drive_inputs (w : Wires) (s : State) : (s.drive w).inputs = s.inputs := rfl

@[simp] theorem State.takeSample_cw (s : State) : s.takeSample.cw = s.cw := rfl
@[simp] theorem State.takeSample_cnt (s : State) : s.takeSample.cnt = s.cnt := rfl
@[simp] theorem State.takeSample_phase (s : State) : s.takeSample.phase = s.phase := rfl
@[simp] theorem State.takeSample_ready (s : State) : s.takeSample.ready = s.ready := rfl
@[simp] theorem State.takeSample_tmrRestart (s : State) : s.takeSample.tmrRestart = s.tmrRestart := rfl
@[simp] theorem State.takeSample_cause (s : State) : s.takeSample.cause = s.cause := rfl
@[simp] theorem State.takeSample_sample (s : State) : s.takeSample.sample = rspWord s := rfl
@[simp] theorem State.takeSample_wires (s : State) : s.takeSample.wires = s.wires := rfl
@[simp] theorem State.takeSample_inputs (s : State) : s.takeSample.inputs = s.inputs := rfl

@[simp] theorem State.withInputs_cw (cs : List PortCycle) (s : State) : (s.withInputs cs).cw = s.cw := rfl
@[simp] theorem State.withInputs_cnt (cs : List PortCycle) (s : State) : (s.withInputs cs).cnt = s.cnt := rfl
@[simp] theorem State.withInputs_phase (cs : List PortCycle) (s : State) : (s.withInputs cs).phase = s.phase := rfl
@[simp] theorem State.withInputs_ready (cs : List PortCycle) (s : State) : (s.withInputs cs).ready = s.ready := rfl
@[simp] theorem State.withInputs_tmrRestart (cs : List PortCycle) (s : State) : (s.withInputs cs).tmrRestart = s.tmrRestart := rfl
@[simp] theorem State.withInputs_cause (cs : List PortCycle) (s : State) : (s.withInputs cs).cause = s.cause := rfl
@[simp] theorem State.withInputs_sample (cs : List PortCycle) (s : State) : (s.withInputs cs).sample = s.sample := rfl
@[simp] theorem State.withInputs_wires (cs : List PortCycle) (s : State) : (s.withInputs cs).wires = s.wires := rfl
@[simp] theorem State.withInputs_inputs (cs : List PortCycle) (s : State) : (s.withInputs cs).inputs = cs := rfl

end Sys2Proof.Machine
end

