-- ==== Sys2Proof/Laws/Ops.lean ====
section
/-! SUPPORT. What each shared operation can do, said once (Machine/Operands.lean, Flags.lean, Ops.lean, Request.lean). -/

namespace Sys2Proof.Machine

/-! ### The counter, the Command Word, the completion check -/

@[simp] theorem predCnt_val (c : Fin 15) : (predCnt c).val = c.val - 1 := rfl

theorem predCnt_eq_zero_iff (c : Fin 15) : predCnt c = 0 ↔ c.val ≤ 1 := by
  rw [Fin.ext_iff]; simp; omega

theorem setBit_getLsbD (cw : CmdWord) (c : Fin 15) (j : Nat) (hj : j < 14) :
    (setBit cw c).getLsbD j = (cw.getLsbD j || decide (j = c.val)) := by
  rcases Nat.lt_trichotomy j c.val with h | h | h
  · have : j ≠ c.val := by omega
    simp [setBit, this, h]
  · simp [setBit, h, show c.val < 14 by omega]
  · have : j ≠ c.val := by omega
    have h' : j - c.val ≠ 0 := by omega
    simp [setBit, this, h']

theorem completes_eq_true_iff (nxt : Phase) (cnt : Fin 15) :
    completes nxt cnt = true ↔ cnt = 0 ∧ (nxt = .startOne ∨ nxt = .midZero) := by
  simp [completes]

/-! ### The classifier and the event code -/

theorem classify_of_short {et : Elapsed} (h : 444 ≤ et.toNat ∧ et.toNat ≤ 1333) : classify et = .short := by
  simp [classify, Config.tShortMin, Config.tShortMax, h]

theorem classify_of_long {et : Elapsed} (h : 1334 ≤ et.toNat ∧ et.toNat ≤ 2222) : classify et = .long := by
  have : ¬(444 ≤ et.toNat ∧ et.toNat ≤ 1333) := by omega
  simp [classify, Config.tShortMin, Config.tShortMax, Config.tLongMin, Config.tLongMax, h, this]

theorem classify_of_invalid {et : Elapsed} (h : et.toNat < 444 ∨ 2222 < et.toNat) : classify et = .invalid := by
  have h1 : ¬(444 ≤ et.toNat ∧ et.toNat ≤ 1333) := by omega
  have h2 : ¬(1334 ≤ et.toNat ∧ et.toNat ≤ 2222) := by omega
  simp [classify, Config.tShortMin, Config.tShortMax, Config.tLongMin, Config.tLongMax, h1, h2]

@[simp] theorem event_invalid (level : Level) : event level .invalid = none := by cases level <;> rfl

theorem event_eq_some_of_valid {level : Level} {cls : TimingClass} (h : cls ≠ .invalid) :
    ∃ ev, event level cls = some ev := by
  cases level <;> cases cls <;> simp_all [event]

/-! ### Phases -/

@[simp] theorem Phase.ofCode_code (p : Phase) : Phase.ofCode p.code = p := by cases p <;> rfl

theorem Phase.code_ofCode : ∀ c : BitVec 3, (Phase.ofCode c).code = c := by decide

/-- The next phase the table gives is a working phase. -/
theorem transition_working {p nxt : Phase} {ev : EventCode} (h : transition p ev = some nxt) :
    p.working = true ∧ nxt.working = true := by
  cases p <;> cases ev <;> simp_all [transition, Phase.working] <;> subst h <;> rfl

/-! ### Steps 7 to 9 of EDGE, and EDGE as a whole -/

/-- Steps 8 and 9: completion or entry. -/
theorem State.finish_cases (nxt : Phase) (s : State) :
    (completes nxt s.cnt = true ∧ s.finish nxt = s.complete) ∨
    (completes nxt s.cnt = false ∧ s.finish nxt = s.enter nxt) := by
  cases h : completes nxt s.cnt <;> simp [State.finish, h]

/-- Steps 7 to 9: overrun, or bit commit and then completion or entry. -/
theorem State.advance_cases (nxt : Phase) (s : State) :
    (nxt.mid = true ∧ s.cnt = 0 ∧ s.advance nxt = s.abandon .overrun) ∨
    (¬(nxt.mid = true ∧ s.cnt = 0) ∧ s.advance nxt = (s.commit nxt).finish nxt) := by
  by_cases h : nxt.mid = true ∧ s.cnt = 0
  · exact .inl ⟨h.1, h.2, by simp [State.advance, h]⟩
  · exact .inr ⟨h, by simp only [State.advance]; rw [if_neg h]⟩

/-- Everything an `EDGE` can do, with the guard of each way. -/
theorem edgeProcedure_cases (level : Level) (et : Elapsed) (s : State) :
    (s.phase = .done ∧ edgeProcedure level et s = s.quiet) ∨
    (s.phase ≠ .done ∧ s.phase.named = false ∧ edgeProcedure level et s = s.abandon .protocol) ∨
    (s.phase ≠ .done ∧ s.phase.named = true ∧ classify et = .invalid ∧
      edgeProcedure level et s = s.abandon .timing) ∨
    (s.phase = .initial ∧ classify et ≠ .invalid ∧ level = .high ∧
      edgeProcedure level et s = s.firstOne.enter .midOne) ∨
    (s.phase = .initial ∧ classify et ≠ .invalid ∧ level = .low ∧
      edgeProcedure level et s = s.firstZero.enter .midZero) ∨
    (∃ ev, s.phase.working = true ∧ event level (classify et) = some ev ∧ transition s.phase ev = none ∧
      edgeProcedure level et s = s.abandon .protocol) ∨
    (∃ ev nxt, s.phase.working = true ∧ event level (classify et) = some ev ∧
      transition s.phase ev = some nxt ∧ edgeProcedure level et s = s.advance nxt) := by
  cases hp : s.phase <;> cases hc : classify et <;> cases level <;>
    simp [edgeProcedure, hp, hc, event, Phase.named, Phase.working, transition]

/-- An `EDGE` answers a next state, that of the procedure. -/
@[simp] theorem exec_edge (level : Level) (et : Elapsed) (s : State) :
    exec (.edge level et) s = .next (edgeProcedure level et (s.drive (wiresOf (classify et) level))) := rfl

/-- No operation stops. -/
theorem exec_isNext (i : Instr) (s : State) : ∃ t, exec i s = .next t := by
  cases i <;> exact ⟨_, rfl⟩

/-! ### Fetching -/

theorem fetch_nil {s : State} (h : s.inputs = []) : fetch s = (.idle, s) := by simp [fetch, h]

theorem fetch_cons {s : State} {c : PortCycle} {rest : List PortCycle} (h : s.inputs = c :: rest) :
    fetch s = (cycleInstr c, if c.sample then (s.withInputs rest).takeSample else s.withInputs rest) := by
  simp [fetch, h]

/-- The operation of a cycle is one of the four at the ports. -/
theorem cycleInstr_cases (c : PortCycle) :
    cycleInstr c = .reset ∨ cycleInstr c = .idle ∨ cycleInstr c = .poll ∨ ∃ level et, cycleInstr c = .edge level et := by
  unfold cycleInstr decodeReq
  split_ifs <;> simp

/-- A fetch leaves the registers alone and takes one cycle off the input list. -/
theorem fetch_snd (s : State) :
    (fetch s).2.cw = s.cw ∧ (fetch s).2.cnt = s.cnt ∧ (fetch s).2.phase = s.phase ∧ (fetch s).2.ready = s.ready ∧
    (fetch s).2.inputs = s.inputs.drop 1 := by
  cases h : s.inputs with
  | nil => simp [fetch, h]
  | cons c rest => cases hs : c.sample <;> simp [fetch, h, hs]

/-! ### The edge word's fields -/

/-- Every bit of an edge word (30_encoding.md R57). -/
theorem edgeWord_getLsbD (level : Level) (et : Elapsed) (j : Nat) :
    (edgeWord level et).getLsbD j =
      if j < 64 then et.getLsbD j else if j = 64 then level.bit else decide (j = 65) := by
  have h : (edgeWord level et).getLsbD j =
      BitVec.getLsbD (w := 2 + 1 + 64) (0b01#2 ++ BitVec.ofBool level.bit ++ et) j := rfl
  rw [h, BitVec.getLsbD_append, BitVec.getLsbD_append]
  by_cases h1 : j < 64
  · simp [h1]
  · by_cases h2 : j = 64
    · subst h2; simp
    · by_cases h3 : j = 65
      · subst h3; simp
      · have h4 : ¬(j - 64 < 1) := by omega
        have h5 : j - 64 - 1 ≠ 0 := by omega
        simp only [h1, h2, h3, h4, if_false, decide_false]
        simp [h5]

theorem edgeWord_extractLsb' (level : Level) (et : Elapsed) : (edgeWord level et).extractLsb' 0 64 = et := by
  apply BitVec.eq_of_getLsbD_eq
  intro j hj
  simp [edgeWord_getLsbD, hj]

@[simp] theorem Level.ofBit_bit (level : Level) : Level.ofBit level.bit = level := by cases level <;> rfl

end Sys2Proof.Machine
end

