-- ==== Sys2Proof/Laws/PerInstr.lean ====
section
/-! SUPPORT. A statement about every instruction, one lemma per constructor: the word the encoder writes fits the
instruction's own row of spec/opcode_table.json. -/

namespace Sys2Proof.Laws

/-- The mask and the match of an instruction's row of spec/opcode_table.json; none for format FN. -/
def tableRow : Instr → Option (PortWord × PortWord)
  | .reset => some (.req 0x40000000000000000#67, .req 0x40000000000000000#67)
  | .edge _ _ => some (.req 0x60000000000000000#67, .req 0x20000000000000000#67)
  | .idle => some (.req 0x60000000000000000#67, .req 0x00000000000000000#67)
  | .poll => some (.rsp 0x00000#17, .rsp 0x00000#17)
  | .edgeInert => some (.dsp 0x07#6, .dsp 0x05#6)
  | .edgeTimingWorking => some (.dsp 0x24#6, .dsp 0x20#6)
  | .edgeTimingInitial => some (.dsp 0x27#6, .dsp 0x24#6)
  | .edgeFirstH => some (.dsp 0x2F#6, .dsp 0x0C#6)
  | .edgeFirstL => some (.dsp 0x2F#6, .dsp 0x04#6)
  | .edgeS1Sh => some (.dsp 0x3F#6, .dsp 0x08#6)
  | .edgeM1Sl => some (.dsp 0x3F#6, .dsp 0x01#6)
  | .edgeM1Ll => some (.dsp 0x3F#6, .dsp 0x11#6)
  | .edgeM0Sh => some (.dsp 0x3F#6, .dsp 0x0A#6)
  | .edgeM0Lh => some (.dsp 0x3F#6, .dsp 0x1A#6)
  | .edgeS0Sl => some (.dsp 0x3F#6, .dsp 0x03#6)
  | .edgeS1ViolSl => some (.dsp 0x3F#6, .dsp 0x00#6)
  | .edgeS1ViolLl => some (.dsp 0x3F#6, .dsp 0x10#6)
  | .edgeS1ViolLh => some (.dsp 0x3F#6, .dsp 0x18#6)
  | .edgeM1ViolSh => some (.dsp 0x3F#6, .dsp 0x09#6)
  | .edgeM1ViolLh => some (.dsp 0x3F#6, .dsp 0x19#6)
  | .edgeM0ViolSl => some (.dsp 0x3F#6, .dsp 0x02#6)
  | .edgeM0ViolLl => some (.dsp 0x3F#6, .dsp 0x12#6)
  | .edgeS0ViolSh => some (.dsp 0x3F#6, .dsp 0x0B#6)
  | .edgeS0ViolLl => some (.dsp 0x3F#6, .dsp 0x13#6)
  | .edgeS0ViolLh => some (.dsp 0x3F#6, .dsp 0x1B#6)
  | .edgeUnreach => some (.dsp 0x06#6, .dsp 0x06#6)
  | .classifyShort _ => none
  | .classifyLong _ => none
  | .classifyInvalid _ => none
  | .event _ _ => none

/-- A word fits a row: same format, and the examined bits have the row's values. -/
def rowFits : PortWord × PortWord → PortWord → Bool
  | (.req k, .req m), .req w => w &&& k == m
  | (.dsp k, .dsp m), .dsp w => w &&& k == m
  | (.rsp k, .rsp m), .rsp w => w &&& k == m
  | _, _ => false

/-- The word the encoder writes fits the instruction's row. -/
def EncodeFitsRow.Statement (i : Instr) : Prop :=
  ∀ w, encode i = some w → ∃ r, tableRow i = some r ∧ rowFits r w = true

theorem EncodeFitsRow.of_closed {i : Instr} {w : PortWord} {r : PortWord × PortWord} (he : encode i = some w)
    (hr : tableRow i = some r) (hf : rowFits r w = true) : EncodeFitsRow.Statement i := by
  intro w' h
  rw [he] at h
  exact ⟨r, hr, by rw [← Option.some.inj h]; exact hf⟩

theorem EncodeFitsRow.of_none {i : Instr} (he : encode i = none) : EncodeFitsRow.Statement i := by
  intro w h
  simp [he] at h

/-- The examined bits of an edge word, whatever its operands (30_encoding.md R58). -/
theorem edgeWord_masked (level : Level) (et : Elapsed) :
    edgeWord level et &&& 0x60000000000000000#67 = 0x20000000000000000#67 := by
  apply BitVec.eq_of_getLsbD_eq
  intro j hj
  rw [BitVec.getLsbD_and, Machine.edgeWord_getLsbD]
  rcases (by omega : j < 64 ∨ j = 64 ∨ j = 65 ∨ j = 66) with h | h | h | h
  · have low : ∀ j, j < 64 → BitVec.getLsbD 0x60000000000000000#67 j = false ∧
        BitVec.getLsbD 0x20000000000000000#67 j = false := by decide
    simp [low j h]
  all_goals subst h; simp

theorem EncodeFitsRow.reset : EncodeFitsRow.Statement .reset := EncodeFitsRow.of_closed rfl rfl (by decide)
theorem EncodeFitsRow.edge (level : Level) (et : Elapsed) : EncodeFitsRow.Statement (.edge level et) :=
  EncodeFitsRow.of_closed rfl rfl (by simp [rowFits, edgeWord_masked])
theorem EncodeFitsRow.idle : EncodeFitsRow.Statement .idle := EncodeFitsRow.of_closed rfl rfl (by decide)
theorem EncodeFitsRow.poll : EncodeFitsRow.Statement .poll := EncodeFitsRow.of_closed rfl rfl (by decide)
theorem EncodeFitsRow.edgeInert : EncodeFitsRow.Statement .edgeInert := EncodeFitsRow.of_closed rfl rfl (by decide)
theorem EncodeFitsRow.edgeTimingWorking : EncodeFitsRow.Statement .edgeTimingWorking := EncodeFitsRow.of_closed rfl rfl (by decide)
theorem EncodeFitsRow.edgeTimingInitial : EncodeFitsRow.Statement .edgeTimingInitial := EncodeFitsRow.of_closed rfl rfl (by decide)
theorem EncodeFitsRow.edgeFirstH : EncodeFitsRow.Statement .edgeFirstH := EncodeFitsRow.of_closed rfl rfl (by decide)
theorem EncodeFitsRow.edgeFirstL : EncodeFitsRow.Statement .edgeFirstL := EncodeFitsRow.of_closed rfl rfl (by decide)
theorem EncodeFitsRow.edgeS1Sh : EncodeFitsRow.Statement .edgeS1Sh := EncodeFitsRow.of_closed rfl rfl (by decide)
theorem EncodeFitsRow.edgeM1Sl : EncodeFitsRow.Statement .edgeM1Sl := EncodeFitsRow.of_closed rfl rfl (by decide)
theorem EncodeFitsRow.edgeM1Ll : EncodeFitsRow.Statement .edgeM1Ll := EncodeFitsRow.of_closed rfl rfl (by decide)
theorem EncodeFitsRow.edgeM0Sh : EncodeFitsRow.Statement .edgeM0Sh := EncodeFitsRow.of_closed rfl rfl (by decide)
theorem EncodeFitsRow.edgeM0Lh : EncodeFitsRow.Statement .edgeM0Lh := EncodeFitsRow.of_closed rfl rfl (by decide)
theorem EncodeFitsRow.edgeS0Sl : EncodeFitsRow.Statement .edgeS0Sl := EncodeFitsRow.of_closed rfl rfl (by decide)
theorem EncodeFitsRow.edgeS1ViolSl : EncodeFitsRow.Statement .edgeS1ViolSl := EncodeFitsRow.of_closed rfl rfl (by decide)
theorem EncodeFitsRow.edgeS1ViolLl : EncodeFitsRow.Statement .edgeS1ViolLl := EncodeFitsRow.of_closed rfl rfl (by decide)
theorem EncodeFitsRow.edgeS1ViolLh : EncodeFitsRow.Statement .edgeS1ViolLh := EncodeFitsRow.of_closed rfl rfl (by decide)
theorem EncodeFitsRow.edgeM1ViolSh : EncodeFitsRow.Statement .edgeM1ViolSh := EncodeFitsRow.of_closed rfl rfl (by decide)
theorem EncodeFitsRow.edgeM1ViolLh : EncodeFitsRow.Statement .edgeM1ViolLh := EncodeFitsRow.of_closed rfl rfl (by decide)
theorem EncodeFitsRow.edgeM0ViolSl : EncodeFitsRow.Statement .edgeM0ViolSl := EncodeFitsRow.of_closed rfl rfl (by decide)
theorem EncodeFitsRow.edgeM0ViolLl : EncodeFitsRow.Statement .edgeM0ViolLl := EncodeFitsRow.of_closed rfl rfl (by decide)
theorem EncodeFitsRow.edgeS0ViolSh : EncodeFitsRow.Statement .edgeS0ViolSh := EncodeFitsRow.of_closed rfl rfl (by decide)
theorem EncodeFitsRow.edgeS0ViolLl : EncodeFitsRow.Statement .edgeS0ViolLl := EncodeFitsRow.of_closed rfl rfl (by decide)
theorem EncodeFitsRow.edgeS0ViolLh : EncodeFitsRow.Statement .edgeS0ViolLh := EncodeFitsRow.of_closed rfl rfl (by decide)
theorem EncodeFitsRow.edgeUnreach : EncodeFitsRow.Statement .edgeUnreach := EncodeFitsRow.of_closed rfl rfl (by decide)
theorem EncodeFitsRow.classifyShort (et : Elapsed) : EncodeFitsRow.Statement (.classifyShort et) := EncodeFitsRow.of_none rfl
theorem EncodeFitsRow.classifyLong (et : Elapsed) : EncodeFitsRow.Statement (.classifyLong et) := EncodeFitsRow.of_none rfl
theorem EncodeFitsRow.classifyInvalid (et : Elapsed) : EncodeFitsRow.Statement (.classifyInvalid et) := EncodeFitsRow.of_none rfl
theorem EncodeFitsRow.event (level : Level) (cls : TimingClass) : EncodeFitsRow.Statement (.event level cls) := EncodeFitsRow.of_none rfl

end Sys2Proof.Laws
end

