-- ==== Sys2Proof/Laws/Run.lean ====
section
/-! SUPPORT. What every operation keeps, what a step and a run do, and the response word's value. -/

namespace Sys2Proof

open Machine

/-! ### The response word (30_encoding.md R62) -/

theorem rspWord_of_not_ready {s : State} (h : s.ready = false) : rspWord s = 0 := by
  have hd : pollData s = 0 := by simp [pollData, h]
  simp only [rspWord, pollValid, hd, h]
  decide

/-- The response word depends on `READY` and `CW` only. -/
theorem rspWord_congr {s t : State} (hr : t.ready = s.ready) (hc : t.cw = s.cw) : rspWord t = rspWord s := by
  simp only [rspWord, pollValid, pollData, hr, hc]

/-- Every bit of the response word. -/
theorem rspWord_getLsbD (s : State) (j : Nat) :
    (rspWord s).getLsbD j =
      if j < 14 then (s.ready && s.cw.getLsbD j) else (s.ready && decide (j = 16)) := by
  have h : (rspWord s).getLsbD j = BitVec.getLsbD (w := 1 + 16) (BitVec.ofBool s.ready ++ pollData s) j := rfl
  rw [h, BitVec.getLsbD_append]
  cases hr : s.ready
  · simp [pollData, hr]
  · simp only [pollData, hr, BitVec.getLsbD_setWidth, if_true, Bool.true_and, BitVec.ofBool_true]
    by_cases h1 : j < 14
    · simp [h1, show j < 16 by omega]
    · by_cases h2 : j < 16
      · simp [h1, h2, show j ≠ 16 by omega, BitVec.getLsbD_of_ge s.cw j (by omega)]
      · by_cases h3 : j = 16
        · subst h3; simp
        · have h4 : j - 16 ≠ 0 := by omega
          simp [h1, h2, h3, h4]

/-! ### What every operation keeps -/

theorem advance_keeps (nxt : Phase) (s : State) :
    (s.advance nxt).inputs = s.inputs ∧ (s.advance nxt).sample = s.sample := by
  rcases s.advance_cases nxt with ⟨_, _, h⟩ | ⟨_, h⟩
  · simp [h]
  · rcases (s.commit nxt).finish_cases nxt with ⟨_, h'⟩ | ⟨_, h'⟩ <;> rw [h, h'] <;> cases nxt <;>
      simp [State.commit]

theorem edgeProcedure_keeps (level : Level) (et : Elapsed) (s : State) :
    (edgeProcedure level et s).inputs = s.inputs ∧ (edgeProcedure level et s).sample = s.sample := by
  rcases edgeProcedure_cases level et s with ⟨_, h⟩ | ⟨_, _, h⟩ | ⟨_, _, _, h⟩ | ⟨_, _, _, h⟩ | ⟨_, _, _, h⟩ |
    ⟨_, _, _, _, h⟩ | ⟨_, nxt, _, _, _, h⟩ <;> rw [h] <;> first | exact ⟨rfl, rfl⟩ | exact advance_keeps nxt s

/-- No operation writes the coming inputs. -/
theorem exec_inputs {i : Instr} {s t : State} (h : exec i s = .next t) : t.inputs = s.inputs := by
  cases i
  case edge level et => injection h with h; subst h; exact (edgeProcedure_keeps level et _).1
  all_goals
    injection h with h; subst h
    try split_ifs
    all_goals rfl

/-! ### Steps and runs -/

/-- A step answers a next state and takes one cycle off the input list. -/
theorem step_isNext (s : State) : ∃ t, step s = .next t ∧ t.inputs = s.inputs.drop 1 := by
  obtain ⟨t, ht⟩ := exec_isNext (fetch s).1 (fetch s).2
  exact ⟨t, ht, by rw [exec_inputs ht, (fetch_snd s).2.2.2.2]⟩

@[simp] theorem runSteps_zero (s : State) : runSteps 0 s = .next s := rfl

theorem runSteps_succ {s t : State} (k : Nat) (h : step s = .next t) : runSteps (k + 1) s = runSteps k t := by
  have h' : core.step s = .next t := h
  simp only [runSteps, Host.Core.run, h']
  rfl

/-- A step's operation is one of the four at the ports, run on a state with the same registers. -/
theorem step_cases (s : State) :
    ∃ s0 : State, regsOf s0 = regsOf s ∧ s0.inputs = s.inputs.drop 1 ∧
      (step s = exec .reset s0 ∨ step s = exec .idle s0 ∨ step s = exec .poll s0 ∨
        ∃ level et, step s = exec (.edge level et) s0) := by
  obtain ⟨h1, h2, h3, h4, h5⟩ := fetch_snd s
  refine ⟨(fetch s).2, by simp [regsOf, h1, h2, h3, h4], h5, ?_⟩
  cases h : s.inputs with
  | nil => simp [step, fetch_nil h]
  | cons c rest =>
    have hf : (fetch s).1 = cycleInstr c := by rw [fetch_cons h]
    rcases cycleInstr_cases c with hc | hc | hc | ⟨level, et, hc⟩ <;> simp only [step, hf, hc, true_or, or_true]
    exact .inr (.inr (.inr ⟨level, et, rfl⟩))

/-! ### Which request words select what (30_encoding.md R58), by value -/

theorem decodeReq_edgeWord (level : Level) (et : Elapsed) : decodeReq (edgeWord level et) = .edge level et := by
  simp [decodeReq, edgeWord_getLsbD, edgeWord_extractLsb', -BitVec.getLsbD_eq_getElem]

end Sys2Proof
end

