-- ==== Sys2Proof/Tests/Slice0.lean ====
section
/-! SUPPORT. Tests: ill-formed terms, decoding of words written out from the spec, single operations on the vectors of
95_test_vectors.md, and for every statement with hypotheses a state and operands that meet them. -/

namespace Sys2Proof.Tests

open Machine

/-! ### Helpers -/

/-- A state with the given registers and nothing else of note. -/
def mk (phase : Phase) (cnt : Fin 15) (cw : CmdWord) (ready : Bool) : State :=
  { State.reset with phase := phase, cnt := cnt, cw := cw, ready := ready }

/-- The state after an operation. -/
def after (i : Instr) (s : State) : Option State :=
  match exec i s with
  | .next t => some t
  | .fault _ => none
  | .refused _ => none

/-- An operation's effect as 95_test_vectors.md prints it: the registers, `tmr_restart`, the cause. -/
def gives (i : Instr) (s t : State) (restart : Bool) (cause : Nat) : Bool :=
  match after i s with
  | some u => decide (regsOf u = regsOf t) && u.tmrRestart == restart && u.cause.number == cause
  | none => false

/-- The registers after the next step. -/
def stepRegs (s : State) : Option Regs :=
  match step s with
  | .next t => some (regsOf t)
  | .fault _ => none
  | .refused _ => none

/-- `decode` reads the word as the operation. -/
def reads (w : PortWord) (i : Instr) : Bool :=
  match decode w with
  | .ok j => decide (j = i)
  | .error _ => false

/-- The reset state as the vectors start from it. -/
abbrev s0 : State := mk .initial 14 0 false
abbrev s1 : State := mk .startOne 13 0x2000 false
abbrev m1 : State := mk .midOne 12 0x3000 false
abbrev m0 : State := mk .midZero 11 0x3000 false
abbrev z0 : State := mk .startZero 5 0x3540 false
abbrev waiting : State := mk .midOne 0 0x3541 false
abbrev done : State := mk .done 0 0x3541 true

/-! ### Ill-formed terms (40_timing_classifier.md R80, R85) -/

theorem test_wf_refuses_short_outside :
    (Instr.classifyShort 443).wf = false ∧ (Instr.classifyShort 1334).wf = false := by decide

theorem test_wf_refuses_long_outside :
    (Instr.classifyLong 1333).wf = false ∧ (Instr.classifyLong 2223).wf = false := by decide

theorem test_wf_refuses_invalid_inside :
    (Instr.classifyInvalid 444).wf = false ∧ (Instr.classifyInvalid 2222).wf = false := by decide

theorem test_wf_refuses_event_of_invalid :
    (Instr.event .low .invalid).wf = false ∧ (Instr.event .high .invalid).wf = false := by decide

theorem test_wf_accepts_the_bounds :
    (Instr.classifyShort 444).wf = true ∧ (Instr.classifyShort 1333).wf = true ∧ (Instr.classifyLong 1334).wf = true ∧
    (Instr.classifyLong 2222).wf = true ∧ (Instr.classifyInvalid 443).wf = true ∧
    (Instr.classifyInvalid 2223).wf = true := by decide

/-! ### Decoding: words written out from 30_encoding.md R57, R61, R62, R70 and 95_test_vectors.md -/

theorem test_decode_reset :
    reads (.req 0x40000000000000000#67) .reset ∧ reads (.req 0x5FFFFFFFFFFFFFFFF#67) .reset ∧
    reads (.req 0x70000000000000379#67) .reset := by decide

theorem test_decode_edge_high :
    reads (.req 0x30000000000000379#67) (.edge .high 889) ∧ reads (.req 0x3FFFFFFFFFFFFFFFF#67)
      (.edge .high 18446744073709551615) ∧ reads (.req 0x30000000100000379#67) (.edge .high 4294968185) := by decide

theorem test_decode_edge_low :
    reads (.req 0x200000000000006F2#67) (.edge .low 1778) ∧ reads (.req 0x20000000000000000#67) (.edge .low 0) := by
  decide

theorem test_decode_idle :
    reads (.req 0x00000000000000000#67) .idle ∧ reads (.req 0x1FFFFFFFFFFFFFFFF#67) .idle := by decide

theorem test_decode_poll : reads (.rsp 0x13541#17) .poll ∧ reads (.rsp 0x00000#17) .poll := by decide

theorem test_decode_inert :
    reads (.dsp 0b000101#6) .edgeInert ∧ reads (.dsp 0b111101#6) .edgeInert ∧
    reads (.dsp 0b010101#6) .edgeInert := by decide

theorem test_decode_timing_working :
    reads (.dsp 0b100000#6) .edgeTimingWorking ∧ reads (.dsp 0b101011#6) .edgeTimingWorking ∧
    reads (.dsp 0b111001#6) .edgeTimingWorking := by decide

theorem test_decode_timing_initial :
    reads (.dsp 0b100100#6) .edgeTimingInitial ∧ reads (.dsp 0b101100#6) .edgeTimingInitial := by decide

theorem test_decode_first_h :
    reads (.dsp 0b001100#6) .edgeFirstH ∧ reads (.dsp 0b011100#6) .edgeFirstH := by decide

theorem test_decode_first_l :
    reads (.dsp 0b000100#6) .edgeFirstL ∧ reads (.dsp 0b010100#6) .edgeFirstL := by decide

theorem test_decode_the_six_legal_rows :
    reads (.dsp 0b001000#6) .edgeS1Sh ∧ reads (.dsp 0b000001#6) .edgeM1Sl ∧ reads (.dsp 0b010001#6) .edgeM1Ll ∧
    reads (.dsp 0b001010#6) .edgeM0Sh ∧ reads (.dsp 0b011010#6) .edgeM0Lh ∧ reads (.dsp 0b000011#6) .edgeS0Sl := by decide

theorem test_decode_the_ten_violations :
    reads (.dsp 0b000000#6) .edgeS1ViolSl ∧ reads (.dsp 0b010000#6) .edgeS1ViolLl ∧
    reads (.dsp 0b011000#6) .edgeS1ViolLh ∧ reads (.dsp 0b001001#6) .edgeM1ViolSh ∧
    reads (.dsp 0b011001#6) .edgeM1ViolLh ∧ reads (.dsp 0b000010#6) .edgeM0ViolSl ∧
    reads (.dsp 0b010010#6) .edgeM0ViolLl ∧ reads (.dsp 0b001011#6) .edgeS0ViolSh ∧
    reads (.dsp 0b010011#6) .edgeS0ViolLl ∧ reads (.dsp 0b011011#6) .edgeS0ViolLh := by decide

theorem test_decode_unreach :
    reads (.dsp 0b000110#6) .edgeUnreach ∧ reads (.dsp 0b111111#6) .edgeUnreach := by decide

theorem test_decode_table_words :
    decodeTableWord 72 0x300000000000006F2 = some (.edge .high 1778) ∧ decodeTableWord 67 0 = some .idle ∧
    decodeTableWord 8 0b011010 = some .edgeM0Lh ∧ decodeTableWord 24 0 = some .poll := by decide

theorem test_decode_table_refuses :
    decodeTableWord 0 0 = none ∧ decodeTableWord 72 (2 ^ 67) = none ∧ decodeTableWord 8 64 = none ∧
    decodeTableWord 24 (2 ^ 17) = none ∧ decodeTableWord 16 0 = none := by decide

theorem test_fetch_word_runs_the_edge :
    stepRegs (State.reset.withFetchWord 72 0x30000000000000379) = some ⟨0x2000, 13, .midOne, false⟩ := by decide

theorem test_fetch_word_runs_the_case :
    stepRegs ((mk .initial 12 0x3000 false).withFetchWord 8 0b010001) = some ⟨0x3000, 11, .midZero, false⟩ := by decide

/-- The next step after `withFetchWord` answers what the row's own meaning answers (log 2). -/
theorem test_fetch_word_agrees_with_the_row :
    step (s0.withFetchWord 8 0b001100) = exec .edgeFirstH (fetch (s0.withFetchWord 8 0b001100)).2 ∧
    step (s0.withFetchWord 8 0b100000) = exec .edgeTimingWorking (fetch (s0.withFetchWord 8 0b100000)).2 :=
  ⟨rfl, rfl⟩

/-! ### One operation on the vectors of 95_test_vectors.md -/

/-- V7 rows 3, 5. -/
theorem test_reset :
    gives .reset z0 s0 false 0 ∧ gives .reset done s0 false 0 := by decide

/-- V7 rows 11, 13. -/
theorem test_idle :
    gives .idle (mk .midZero 1 0x3540 false) (mk .midZero 1 0x3540 false) false 0 ∧
    gives .idle done done false 0 := by decide

/-- V7 row 9. -/
theorem test_reset_beats_edge :
    stepRegs { s0 with inputs := [⟨0x70000000000000379#67, false⟩] } = some resetRegs := by decide

/-- V8 rows 3, 5, 6, 8. -/
theorem test_poll :
    (after .poll z0).map (·.sample) = some 0x00000#17 ∧ (after .poll done).map (·.sample) = some 0x13541#17 ∧
    (after .poll (mk .done 0 0 true)).map (·.sample) = some 0x10000#17 ∧
    (after .poll (mk .done 0 0x2AAA true)).map (·.sample) = some 0x12AAA#17 := by decide

/-- V3 rows 1, 4, 7, 8. -/
theorem test_edge_first_valid :
    gives (.edge .high 889) s0 (mk .midOne 13 0x2000 false) true 0 ∧
    gives (.edge .high 2222) s0 (mk .midOne 13 0x2000 false) true 0 ∧
    gives (.edge .low 1333) s0 (mk .midZero 13 0 false) true 0 ∧
    gives (.edge .low 1334) s0 (mk .midZero 13 0 false) true 0 := by decide

/-- V3 rows 10, 14; V4 rows 1, 12. -/
theorem test_edge_invalid :
    gives (.edge .high 2223) s0 s0 false 1 ∧ gives (.edge .high 4294968185) s0 s0 false 1 ∧
    gives (.edge .high 443) s1 s0 false 1 ∧ gives (.edge .low 300) waiting s0 false 1 := by decide

/-- V6b rows 1, 3. -/
theorem test_edge_inert :
    gives (.edge .high 889) done done false 0 ∧ gives (.edge .high 50) done done false 0 := by decide

/-- V5 rows 1 to 4. -/
theorem test_edge_start_one :
    gives (.edge .low 889) s1 s0 false 2 ∧ gives (.edge .high 889) s1 (mk .midOne 12 0x3000 false) true 0 ∧
    gives (.edge .low 1778) s1 s0 false 2 ∧ gives (.edge .high 1778) s1 s0 false 2 := by decide

/-- V5 rows 5 to 8. -/
theorem test_edge_mid_one :
    gives (.edge .low 889) m1 (mk .startOne 12 0x3000 false) true 0 ∧ gives (.edge .high 889) m1 s0 false 2 ∧
    gives (.edge .low 1778) m1 (mk .midZero 11 0x3000 false) true 0 ∧ gives (.edge .high 1778) m1 s0 false 2 := by decide

/-- V5 rows 9 to 12. -/
theorem test_edge_mid_zero :
    gives (.edge .low 889) m0 s0 false 2 ∧ gives (.edge .high 889) m0 (mk .startZero 11 0x3000 false) true 0 ∧
    gives (.edge .low 1778) m0 s0 false 2 ∧ gives (.edge .high 1778) m0 (mk .midOne 10 0x3400 false) true 0 := by decide

/-- V5 rows 13 to 16. -/
theorem test_edge_start_zero :
    gives (.edge .low 889) z0 (mk .midZero 4 0x3540 false) true 0 ∧ gives (.edge .high 889) z0 s0 false 2 ∧
    gives (.edge .low 1778) z0 s0 false 2 ∧ gives (.edge .high 1778) z0 s0 false 2 := by decide

/-- V6 rows 1 to 3. -/
theorem test_edge_completes :
    gives (.edge .low 889) waiting done false 0 ∧
    gives (.edge .low 1778) (mk .midOne 1 0x3802 false) (mk .done 0 0x3802 true) false 0 ∧
    gives (.edge .low 889) (mk .startZero 1 0x3000 false) (mk .done 0 0x3000 true) false 0 := by decide

/-- V6 rows 4 to 8. -/
theorem test_edge_does_not_complete :
    gives (.edge .high 889) (mk .startOne 1 0x3002 false) (mk .midOne 0 0x3003 false) true 0 ∧
    gives (.edge .high 1778) (mk .midZero 1 0x3540 false) waiting true 0 ∧
    gives (.edge .high 889) (mk .midZero 1 0x3540 false) (mk .startZero 1 0x3540 false) true 0 ∧
    gives (.edge .low 889) (mk .midOne 1 0x3802 false) (mk .startOne 1 0x3802 false) true 0 ∧
    gives (.edge .low 1778) waiting s0 false 3 := by decide

/-- V3 rows 1, 5 and V5 rows 2, 5, 7, 10, 12, 13: the cases on their own. -/
theorem test_cases_that_go_on :
    gives .edgeFirstH s0 (mk .midOne 13 0x2000 false) true 0 ∧
    gives .edgeFirstL s0 (mk .midZero 13 0 false) true 0 ∧
    gives .edgeS1Sh s1 (mk .midOne 12 0x3000 false) true 0 ∧
    gives .edgeM1Sl m1 (mk .startOne 12 0x3000 false) true 0 ∧
    gives .edgeM1Ll m1 (mk .midZero 11 0x3000 false) true 0 ∧
    gives .edgeM0Sh m0 (mk .startZero 11 0x3000 false) true 0 ∧
    gives .edgeM0Lh m0 (mk .midOne 10 0x3400 false) true 0 ∧
    gives .edgeS0Sl z0 (mk .midZero 4 0x3540 false) true 0 := by decide

/-- V6 rows 1 to 3, 8: the cases on their own; V6b row 1. -/
theorem test_cases_that_complete :
    gives .edgeM1Sl waiting done false 0 ∧
    gives .edgeM1Ll (mk .midOne 1 0x3802 false) (mk .done 0 0x3802 true) false 0 ∧
    gives .edgeS0Sl (mk .startZero 1 0x3000 false) (mk .done 0 0x3000 true) false 0 ∧
    gives .edgeM1Ll waiting s0 false 3 ∧ gives .edgeInert done done false 0 := by decide

/-- V3 row 9, V4 row 3, V5 rows 1, 3, 4, 6, 8, 9, 11, 14 to 16; 41_edge_operation.md R120. -/
theorem test_cases_that_abandon :
    gives .edgeTimingInitial s0 s0 false 1 ∧ gives .edgeTimingWorking m1 s0 false 1 ∧
    gives .edgeS1ViolSl s1 s0 false 2 ∧ gives .edgeS1ViolLl s1 s0 false 2 ∧ gives .edgeS1ViolLh s1 s0 false 2 ∧
    gives .edgeM1ViolSh m1 s0 false 2 ∧ gives .edgeM1ViolLh m1 s0 false 2 ∧ gives .edgeM0ViolSl m0 s0 false 2 ∧
    gives .edgeM0ViolLl m0 s0 false 2 ∧ gives .edgeS0ViolSh z0 s0 false 2 ∧ gives .edgeS0ViolLl z0 s0 false 2 ∧
    gives .edgeS0ViolLh z0 s0 false 2 ∧ gives .edgeUnreach (mk .code6 3 0x1555 false) s0 false 2 := by decide

/-- V1 rows 443, 444, 1333, 1334, 2222, 2223. -/
theorem test_classify_rows :
    (after (.classifyInvalid 443) s0).map (·.wires) = some ⟨true, false, false⟩ ∧
    (after (.classifyShort 444) s0).map (·.wires) = some ⟨false, false, false⟩ ∧
    (after (.classifyShort 1333) s0).map (·.wires) = some ⟨false, false, false⟩ ∧
    (after (.classifyLong 1334) s0).map (·.wires) = some ⟨false, true, false⟩ ∧
    (after (.classifyLong 2222) s0).map (·.wires) = some ⟨false, true, false⟩ ∧
    (after (.classifyInvalid 2223) s0).map (·.wires) = some ⟨true, false, false⟩ := by decide

/-- V2: codes 0 to 3. -/
theorem test_event_rows :
    (after (.event .low .short) s0).map (fun t => (dspWord t.wires t.phase).extractLsb' 3 2) = some 0#2 ∧
    (after (.event .high .short) s0).map (fun t => (dspWord t.wires t.phase).extractLsb' 3 2) = some 1#2 ∧
    (after (.event .low .long) s0).map (fun t => (dspWord t.wires t.phase).extractLsb' 3 2) = some 2#2 ∧
    (after (.event .high .long) s0).map (fun t => (dspWord t.wires t.phase).extractLsb' 3 2) = some 3#2 := by decide

/-- X2: the first five edges of `FRAME 11010101000001` and its length. -/
theorem test_frame_shape :
    (frameLines 0x3541 889 889 1778).take 5 =
      [.edge .high 889, .edge .low 889, .edge .high 889, .edge .low 1778, .edge .high 1778] ∧
    (frameShape 0x3541).length = 20 ∧ (frameShape 0x2AAA).length = 14 ∧ (frameShape 0x3FFF).length = 28 := by decide

/-! ### Hypotheses: every statement that has some is met, each clause at a boundary value where it has a range -/

/-- A run's hypothesis `exec i s = .next t` is met for every `i` and `s` here. -/
abbrev Answers (i : Instr) (s : State) : Prop := ∃ t, exec i s = .next t

theorem witness_DecodeOfEncodeGivesTheInstruction :
    (Instr.edge .high 18446744073709551615).wf = true ∧
    encode (.edge .high 18446744073709551615) = some (.req 0x3FFFFFFFFFFFFFFFF#67) ∧
    encode (.classifyShort 444) = none ∧ encode (.event .low .long) = none := by decide

theorem witness_RequestWordSelectsOneOperation :
    2 ^ 66 ≤ (0x40000000000000000#67).toNat ∧ 2 ^ 66 ≤ (0x7FFFFFFFFFFFFFFFF#67).toNat ∧
    (0x1FFFFFFFFFFFFFFFF#67).toNat < 2 ^ 65 ∧ 2 ^ 65 ≤ (0x20000000000000000#67).toNat ∧
    (0x3FFFFFFFFFFFFFFFF#67).toNat < 2 ^ 66 ∧ (0x2FFFFFFFFFFFFFFFF#67).toNat < 2 ^ 65 + 2 ^ 64 ∧
    2 ^ 65 + 2 ^ 64 ≤ (0x30000000000000000#67).toNat := by decide

theorem witness_StepRunsTheDecodedOperation :
    (s0.withInputs [⟨edgeWord .high 889, false⟩]).inputs = ⟨edgeWord .high 889, false⟩ :: [] ∧
    reads (.req (edgeWord .high 889)) (.edge .high 889) ∧ Instr.edge .high 889 ≠ .idle ∧
    (s0.withInputs [⟨edgeWord .high 889, true⟩]).inputs = ⟨edgeWord .high 889, true⟩ :: [] ∧
    reads (.req idleWord) .idle ∧ (s0.withInputs [⟨idleWord, true⟩]).inputs = ⟨idleWord, true⟩ :: [] ∧
    s0.inputs = [] := by decide

theorem witness_Malformed :
    Malformed s0 .high 443 ∧ Malformed z0 .low 2223 ∧ Malformed s1 .low 444 ∧ Malformed waiting .low 1334 :=
  ⟨.inl (by decide), .inl (by decide), .inr (.inl ⟨by decide, .sl, by decide, by decide⟩),
    .inr (.inr ⟨.ll, .midZero, by decide, by decide, by decide, by decide⟩)⟩

/-- ResetIsIdempotentAndIsTheAbandonment and EveryMalformedInputAbandons. -/
theorem witness_EveryMalformedInputAbandons :
    Answers .reset done ∧ s1.phase.named = true ∧
    ∃ t, exec (.edge .low 444) s1 = .next t ∧ t.phase = .initial :=
  ⟨⟨_, rfl⟩, by decide, _, rfl, by decide⟩

theorem witness_ResetWithAnEdgeDropsTheEdge :
    (s0.withInputs [⟨0x60000000000000000#67, true⟩]).inputs = ⟨0x60000000000000000#67, true⟩ :: [] ∧
    2 ^ 66 + 2 ^ 65 ≤ (0x60000000000000000#67).toNat ∧ 2 ^ 66 + 2 ^ 65 ≤ (0x7FFFFFFFFFFFFFFFF#67).toNat := by decide

theorem witness_AnyNumberOfIdleCyclesChangesNothing :
    ∀ c ∈ (z0.withInputs [⟨idleWord, false⟩, ⟨0x1FFFFFFFFFFFFFFFF#67, false⟩, ⟨resetWord, false⟩]).inputs.take 2,
      c.sample = false ∧ c.req.toNat < 2 ^ 65 := by decide

theorem witness_SampleSeesTheStateBeforeTheCycle :
    (done.withInputs [⟨resetWord, true⟩]).inputs = ⟨resetWord, true⟩ :: [] := by decide

theorem witness_PolledWordStaysUntilReset :
    (done.withInputs [⟨edgeWord .high 50, true⟩, ⟨idleWord, true⟩]).phase = .done ∧
    ∀ c ∈ (done.withInputs [⟨edgeWord .high 50, true⟩, ⟨idleWord, true⟩]).inputs,
      decode (.req c.req) ≠ .ok .reset := by
  refine ⟨by decide, ?_⟩
  intro c hc h
  have hb : reads (.req c.req) .reset = true := by simp [reads, h]
  revert c
  decide

theorem witness_OnlyDoneIgnoresEveryRequestButReset :
    Answers (.edge .high 50) done ∧ ∃ t, step (done.withInputs [⟨resetWord, false⟩]) = .next t ∧ t.phase ≠ .done :=
  ⟨⟨_, rfl⟩, _, rfl, by decide⟩

theorem witness_StaleReadIsNoError : waiting.ready = false := by decide

/-- ClassifierRanges and ClassifierCountsAndEnds: the bounds of each range. -/
theorem witness_ClassifierRanges :
    IsShort 444 ∧ IsShort 1333 ∧ IsLong 1334 ∧ IsLong 2222 ∧ IsInvalid 443 ∧ IsInvalid 2223 ∧ IsInvalid 0 ∧
    2223 ≤ (2223 : Elapsed).toNat ∧ s0.phase ≠ .done ∧ classify 443 = .invalid := by decide

theorem witness_EventCodeNumbersTheFourPairs :
    TimingClass.long ≠ .invalid ∧ TimingClass.short ≠ .invalid ∧ event .high .long = some .lh ∧
    event .low .short = some .sl := by decide

theorem witness_PackedTableGivesTheTransitionTable :
    Phase.midOne.working = true ∧ transition .midOne .ll = some .midZero ∧ transition .midOne .lh = none := by decide

theorem witness_EdgeInDoneIsInert : done.phase = .done ∧ (0b111101#6).extractLsb' 0 3 = 5#3 := by decide

theorem witness_InvalidTimingAbandons :
    s1.phase ≠ .done ∧ IsInvalid 443 ∧ IsInvalid 2223 ∧ (0b100000#6).getLsbD 5 = true ∧
    (0b100000#6).getLsbD 2 = false ∧ (0b101100#6).getLsbD 5 = true ∧ (0b101100#6).extractLsb' 0 3 = 4#3 := by decide

/-- FirstEdgeToHigh and FirstEdgeToLow. -/
theorem witness_FirstEdge :
    s0.phase = .initial ∧ IsShort 444 ∧ IsLong 2222 ∧ (0b011100#6).getLsbD 5 = false ∧
    (0b011100#6).extractLsb' 0 4 = 0b1100#4 ∧ (0b010100#6).getLsbD 5 = false ∧
    (0b010100#6).extractLsb' 0 4 = 0b0100#4 := by decide

theorem witness_StartOneShortHighCommitsOne :
    (mk .startOne 1 0x3002 false).phase = .startOne ∧ 1 ≤ (mk .startOne 1 0x3002 false).cnt.val ∧ IsShort 1333 := by
  decide

theorem witness_MidOneShortLowConfirmsOrCompletes :
    waiting.phase = .midOne ∧ waiting.cnt = 0 ∧ IsShort 444 ∧ (mk .midOne 1 0x3802 false).phase = .midOne ∧
    (mk .midOne 1 0x3802 false).cnt ≠ 0 := by decide

theorem witness_MidOneLongLowCommitsZero :
    waiting.phase = .midOne ∧ waiting.cnt = 0 ∧ IsLong 1334 ∧ (mk .midOne 1 0x3802 false).cnt.val = 1 ∧
    (mk .midOne 2 0x3804 false).phase = .midOne ∧ (mk .midOne 2 0x3804 false).cnt.val ≠ 1 := by decide

theorem witness_MidZeroShortHighConfirms : m0.phase = .midZero ∧ IsShort 444 ∧ IsShort 1333 := by decide

theorem witness_MidZeroLongHighCommitsOne :
    (mk .midZero 1 0x3540 false).phase = .midZero ∧ 1 ≤ (mk .midZero 1 0x3540 false).cnt.val ∧ IsLong 1334 := by decide

theorem witness_StartZeroShortLowCommitsZero :
    (mk .startZero 1 0x3000 false).phase = .startZero ∧ (mk .startZero 1 0x3000 false).cnt.val = 1 ∧ IsShort 444 ∧
    z0.phase = .startZero ∧ z0.cnt.val ≠ 1 := by decide

/-- StartOneViolations, MidOneViolations, MidZeroViolations, StartZeroViolations. -/
theorem witness_Violations :
    s1.phase = .startOne ∧ m1.phase = .midOne ∧ m0.phase = .midZero ∧ z0.phase = .startZero ∧ IsShort 444 ∧
    IsShort 1333 ∧ IsLong 1334 ∧ IsLong 2222 := by decide

theorem witness_UnreachableCodesAbandon :
    (mk .code6 0 0 false).phase = .code6 ∧ (mk .code7 14 0x3FFF true).phase = .code7 ∧ (0b000110#6).getLsbD 2 = true ∧
    (0b000110#6).getLsbD 1 = true := by decide

theorem witness_EnteringMidZeroCommitsZero :
    event .low (classify 1334) = some .ll ∧ transition Phase.midOne .ll = some .midZero ∧
    1 ≤ (mk .midOne 1 0x3802 false).cnt.val ∧ event .low (classify 444) = some .sl ∧
    transition Phase.startZero .sl = some .midZero ∧ (mk .startZero 1 0x3000 false).phase = .startZero ∧ s0.phase = .initial ∧ s0.cnt = 14 ∧ IsLong 2222 := by decide

theorem witness_EnteringMidOneCommitsOne :
    event .high (classify 1333) = some .sh ∧ transition Phase.startOne .sh = some .midOne ∧
    1 ≤ (mk .startOne 1 0x3002 false).cnt.val ∧ Consistent (mk .startOne 1 0x3002 false) ∧
    (mk .midZero 1 0x3540 false).phase = .midZero ∧ s0.phase = .initial ∧ s0.cnt = 14 ∧ IsShort 444 := by decide

theorem witness_OverrunAbandonsInEveryCommittingCase : waiting.cnt = 0 := by decide

theorem witness_ReadyRisesOnlyAtCompletion :
    waiting.ready = false ∧ waiting.phase ≠ .done ∧ ∃ t, exec (.edge .low 444) waiting = .next t ∧ t.ready = true :=
  ⟨by decide, by decide, _, rfl, by decide⟩

theorem witness_TimerRestartExactlyOnAcceptedEdges :
    (∃ t, exec (.edge .high 444) s1 = .next t ∧ t.tmrRestart = true) ∧ Answers .reset s1 ∧ Answers .idle s1 ∧
    Answers .poll s1 :=
  ⟨⟨_, rfl, by decide⟩, ⟨_, rfl⟩, ⟨_, rfl⟩, _, rfl⟩

theorem witness_AbandonmentIsAllOrNothing :
    (∃ t, exec (.edge .high 2223) z0 = .next t ∧ z0.phase ≠ .done ∧ TimingViolation z0 2223 ∧ Abandoned z0 t) ∧
    (∃ t, exec (.edge .high 2222) s0 = .next t ∧ Entered .midOne s0 t ∧ t.cnt = 13 ∧ t.cw.getLsbD 13 = true) ∧
    (∃ t, exec (.edge .low 444) s0 = .next t ∧ Entered .midZero s0 t ∧ t.cnt = 13 ∧ t.cw = s0.cw) ∧
    (∃ t, exec (.edge .low 1334) m1 = .next t ∧ CommittedZero m1 t ∧ t.cnt ≠ 0 ∧ Entered .midZero m1 t) ∧
    ∃ t, exec (.edge .low 444) waiting = .next t ∧ NoCommit waiting t ∧ t.cnt = 0 ∧ Completed waiting t :=
  ⟨⟨_, rfl, by decide⟩, ⟨_, rfl, by decide⟩, ⟨_, rfl, by decide⟩, ⟨_, rfl, by decide⟩, _, rfl, by decide⟩

theorem witness_AbandonmentIsSilent :
    (∃ t, exec (.edge .high 443) z0 = .next t ∧ t.phase = .initial) ∧ Answers .reset z0 :=
  ⟨⟨_, rfl, by decide⟩, _, rfl⟩

theorem witness_RepeatedLevelAbandons : ∃ t, exec (.edge .high 444) s0 = .next t ∧ t.phase.working = true :=
  ⟨_, rfl, by decide⟩

/-- EveryStepKeepsTheRegistersConsistent, EveryConsistentStateIsReached: a consistent state of each phase, at the ends of its
counter's range, and a step of one. -/
theorem witness_Consistent :
    Consistent s0 ∧ Consistent (mk .midOne 13 0x2000 false) ∧ Consistent waiting ∧ Consistent s1 ∧
    Consistent (mk .startOne 1 0x3002 false) ∧ Consistent (mk .midZero 13 0 false) ∧
    Consistent (mk .startZero 1 0x3000 false) ∧ Consistent done :=
  ⟨by decide, by decide, by decide, by decide, by decide, by decide, by decide, by decide⟩

theorem witness_EveryStepKeepsTheRegistersConsistent :
    Consistent (waiting.withInputs [⟨edgeWord .low 889, false⟩]) ∧
    ∃ t, step (waiting.withInputs [⟨edgeWord .low 889, false⟩]) = .next t ∧ t.phase = .done :=
  ⟨by decide, _, rfl, by decide⟩

theorem witness_ReadyExactlyInDone :
    (waiting.ready = true ↔ waiting.phase = .done) ∧ (done.ready = true ↔ done.phase = .done) ∧
    Answers (.edge .low 444) waiting ∧
    ∃ t, runSteps 1 { State.reset with inputs := [⟨edgeWord .high 889, false⟩] } = .next t :=
  ⟨by decide, by decide, ⟨_, rfl⟩, _, rfl⟩

theorem witness_AssembledBitsNeverChange :
    Consistent (m0.withInputs [⟨edgeWord .high 1778, false⟩]) ∧
    ∃ t, step (m0.withInputs [⟨edgeWord .high 1778, false⟩]) = .next t ∧ t.phase ≠ .initial :=
  ⟨by decide, _, rfl, by decide⟩

theorem witness_TraceNamesTheFirstCauseThatApplies :
    Consistent waiting ∧ (∃ t, exec (.edge .low 1334) waiting = .next t ∧ t.cause = .overrun) ∧
    (∃ t, exec (.edge .high 1334) waiting = .next t ∧ t.cause = .protocol) ∧
    ∃ t, exec (.edge .low 2223) waiting = .next t ∧ t.cause = .timing :=
  ⟨by decide, ⟨_, rfl, by decide⟩, ⟨_, rfl, by decide⟩, _, rfl, by decide⟩

theorem witness_PortsHideTheSession :
    z0.ready = m1.ready ∧ (z0.phase = .done ↔ m1.phase = .done) ∧ (z0.ready = true → z0.cw = m1.cw) ∧
    done.ready = true := by decide

theorem witness_ModelFieldsNeverFeedBack :
    regsOf (m1.withInputs [⟨edgeWord .low 889, true⟩]) =
      regsOf ({ m1 with cause := .overrun, sample := 0x13541, wires := ⟨true, true, true⟩ }.withInputs
        [⟨edgeWord .low 889, true⟩]) ∧
    (∃ t, runSteps 1 (m1.withInputs [⟨edgeWord .low 889, true⟩]) = .next t) ∧
    ∃ t, runSteps 1 ({ m1 with cause := .overrun, sample := 0x13541, wires := ⟨true, true, true⟩ }.withInputs
      [⟨edgeWord .low 889, true⟩]) = .next t :=
  ⟨by decide, ⟨_, rfl⟩, _, rfl⟩

theorem witness_shape : frameShape 0x2AAA = (Level.high, Gap.first) ::
    [(.low, .full), (.high, .full), (.low, .full), (.high, .full), (.low, .full), (.high, .full), (.low, .full),
     (.high, .full), (.low, .full), (.high, .full), (.low, .full), (.high, .full), (.low, .full)] := by decide

/-- EveryWellFormedFrameDecodes and NoFramePublishesEarly: the frame of `0x2AAA` (95_test_vectors.md V9), the times at bounds. -/
theorem witness_IsFrame :
    IsFrame 0x2AAA ((Level.high, 444) ::
      [(.low, 1334), (.high, 2222), (.low, 1778), (.high, 1778), (.low, 1778), (.high, 1778), (.low, 1778),
       (.high, 1778), (.low, 1778), (.high, 1778), (.low, 1778), (.high, 1778), (.low, 1778)]) := by
  unfold IsFrame
  rw [witness_shape]
  refine .cons ⟨rfl, .inl (by decide)⟩ ?_
  repeat' first
    | exact .nil
    | refine .cons ⟨rfl, by decide⟩ ?_

theorem witness_NoFramePublishesEarly :
    ∃ t, runSteps 1 { State.reset with inputs := [edgeCycle (.high, 444)] } = .next t ∧ t.ready = false :=
  ⟨_, rfl, by decide⟩

end Sys2Proof.Tests
end

section
/-! PROOFS. `READY` and DONE (10_state.md R26): every operation at the ports keeps the agreement of the flag with the
phase, so every run from the reset state has it. -/

namespace Sys2Proof

open Machine

/-! ### An invariant of the step is an invariant of runs -/

/-- The induction over the cycles of a run, once for every invariant. -/
theorem runSteps_preserves {P : State → Prop} (hstep : ∀ s t, P s → step s = .next t → P t) (k : Nat) :
    ∀ {s t : State}, P s → runSteps k s = .next t → P t := by
  induction k with
  | zero =>
    intro s t hs h
    rw [runSteps_zero] at h
    injection h with h
    exact h ▸ hs
  | succ k ih =>
    intro s t hs h
    obtain ⟨u, hu, -⟩ := step_isNext s
    rw [runSteps_succ k hu] at h
    exact ih (hstep s u hs hu) h

/-! ### The agreement of `READY` with `PHASE` -/

/-- 10_state.md R26 on one state: `READY` = 1 exactly when `PHASE` = DONE. -/
def ReadyIffDone (s : State) : Prop := s.ready = true ↔ s.phase = .done

theorem readyIffDone_congr {s t : State} (hr : t.ready = s.ready) (hp : t.phase = s.phase) :
    ReadyIffDone t ↔ ReadyIffDone s := by
  rw [ReadyIffDone, ReadyIffDone, hr, hp]

theorem readyIffDone_of_not_ready {s : State} (hr : s.ready = false) (hp : s.phase ≠ .done) : ReadyIffDone s := by
  simp [ReadyIffDone, hr, hp]

theorem ReadyIffDone.ready_eq_false {s : State} (h : ReadyIffDone s) (hp : s.phase ≠ .done) : s.ready = false :=
  Bool.eq_false_iff.mpr (mt h.mp hp)

theorem readyIffDone_writeReset (s : State) : ReadyIffDone s.writeReset :=
  readyIffDone_of_not_ready rfl (by simp)

theorem readyIffDone_abandon (c : Cause) (s : State) : ReadyIffDone (s.abandon c) :=
  readyIffDone_of_not_ready rfl (by simp)

theorem readyIffDone_complete (s : State) : ReadyIffDone s.complete := by simp [ReadyIffDone]

/-- Entering any phase but DONE with `READY` = 0. -/
theorem readyIffDone_enter {p : Phase} {s : State} (hr : s.ready = false) (hp : p ≠ .done) :
    ReadyIffDone (s.enter p) :=
  readyIffDone_of_not_ready hr hp

/-- A bit commit does not write `READY` (41_edge_operation.md R110, R111). -/
theorem commit_ready (nxt : Phase) (s : State) : (s.commit nxt).ready = s.ready := by
  cases nxt <;> rfl

/-- Steps 7 to 9 of `EDGE`: an overrun resets both, completion sets both, and entry writes neither a 1 nor DONE. -/
theorem readyIffDone_advance {nxt : Phase} {s : State} (hr : s.ready = false) (hn : nxt ≠ .done) :
    ReadyIffDone (s.advance nxt) := by
  rcases s.advance_cases nxt with ⟨-, -, hov⟩ | ⟨-, hadv⟩
  · rw [hov]; exact readyIffDone_abandon _ s
  · rw [hadv]
    rcases (s.commit nxt).finish_cases nxt with ⟨-, hfin⟩ | ⟨-, hfin⟩ <;> rw [hfin]
    · exact readyIffDone_complete _
    · exact readyIffDone_enter ((commit_ready nxt s).trans hr) hn

theorem ne_done_of_working {p : Phase} (h : p.working = true) : p ≠ .done := by
  rintro rfl
  cases h

/-- `EDGE` keeps the agreement. In DONE it writes no register; elsewhere `READY` is 0 before it, and the first edge
and a table transition lead to a phase other than DONE unless the frame completes. -/
theorem readyIffDone_edgeProcedure (level : Level) (et : Elapsed) {s : State} (hs : ReadyIffDone s) :
    ReadyIffDone (edgeProcedure level et s) := by
  rcases edgeProcedure_cases level et s with ⟨-, h⟩ | ⟨-, -, h⟩ | ⟨-, -, -, h⟩ | ⟨hp, -, -, h⟩ | ⟨hp, -, -, h⟩ |
    ⟨_, -, -, -, h⟩ | ⟨_, nxt, hw, -, hT, h⟩ <;> rw [h]
  · exact hs
  · exact readyIffDone_abandon _ s
  · exact readyIffDone_abandon _ s
  · exact readyIffDone_enter (hs.ready_eq_false (by simp [hp])) (by decide)
  · exact readyIffDone_enter (hs.ready_eq_false (by simp [hp])) (by decide)
  · exact readyIffDone_abandon _ s
  · exact readyIffDone_advance (hs.ready_eq_false (ne_done_of_working hw))
      (ne_done_of_working (transition_working hT).2)

/-! ### The operations at the ports, a step, a run -/

/-- Each of the four operations at the ports keeps the agreement. -/
theorem readyIffDone_exec {i : Instr} {s t : State} (hs : ReadyIffDone s)
    (hi : i = .reset ∨ i = .idle ∨ i = .poll ∨ ∃ level et, i = .edge level et) (h : exec i s = .next t) :
    ReadyIffDone t := by
  rcases hi with rfl | rfl | rfl | ⟨level, et, rfl⟩ <;> injection h with h <;> subst h
  · exact readyIffDone_writeReset s
  · exact hs
  · exact hs
  · exact readyIffDone_edgeProcedure level et hs

/-- A fetch leaves `READY` and `PHASE` alone, and the fetched operation is one of the four at the ports. -/
theorem readyIffDone_step (s t : State) (hs : ReadyIffDone s) (h : step s = .next t) : ReadyIffDone t := by
  obtain ⟨s0, hregs, -, hop⟩ := step_cases s
  have hs0 : ReadyIffDone s0 :=
    (readyIffDone_congr (congrArg Regs.ready hregs) (congrArg Regs.phase hregs)).mpr hs
  rcases hop with ho | ho | ho | ⟨level, et, ho⟩ <;> rw [ho] at h <;> exact readyIffDone_exec hs0 (by simp) h

/-- Settles O51: the agreement is kept by each operation, and by induction over the cycles by every run from reset. -/
theorem readyExactlyInDone : Obligations.ReadyExactlyInDone := by
  unfold Obligations.ReadyExactlyInDone
  refine ⟨fun s i t hs hi h => readyIffDone_exec hs hi h, fun k cycles t h => ?_⟩
  have hreset : ReadyIffDone { State.reset with inputs := cycles } := readyIffDone_of_not_ready rfl (by simp [State.reset])
  exact runSteps_preserves readyIffDone_step k hreset h

end Sys2Proof
end

section
/-! PROOFS. The response word in DONE (20_memory.md R47): a cycle without `RESET` keeps the registers, so the consumer
finds the same word in every cycle until the next `RESET`. -/

namespace Sys2Proof

open Machine

/-! ### Registers kept, and at most their own word sampled -/

/-- From `s` to `t` the registers are kept, and the consumer has its old sample or has taken the response word of `s`
(20_memory.md R47, R49). -/
structure HoldsWord (s t : State) : Prop where
  regs : regsOf t = regsOf s
  sample : t.sample = s.sample ∨ t.sample = rspWord s

/-- The response word is a function of the registers (30_encoding.md R56, R62). -/
theorem rspWord_eq_of_regsOf {s t : State} (h : regsOf t = regsOf s) : rspWord t = rspWord s :=
  rspWord_congr (congrArg Regs.ready h) (congrArg Regs.cw h)

theorem HoldsWord.phase {s t : State} (h : HoldsWord s t) : t.phase = s.phase := congrArg Regs.phase h.regs

theorem HoldsWord.refl (s : State) : HoldsWord s s := ⟨rfl, .inl rfl⟩

/-- A word sampled later is that of the first state, because the registers in between are its registers. -/
theorem HoldsWord.trans {s t u : State} (h : HoldsWord s t) (h' : HoldsWord t u) : HoldsWord s u where
  regs := h'.regs.trans h.regs
  sample := by
    rcases h'.sample with hu | hu
    · rw [hu]; exact h.sample
    · exact .inr (hu.trans (rspWord_eq_of_regsOf h.regs))

/-! ### The operations at the ports in DONE -/

/-- An edge in DONE is inert: no register is written and no timer restart asked for (41_edge_operation.md R97). -/
theorem edgeProcedure_of_done (level : Level) (et : Elapsed) {s : State} (hp : s.phase = .done) :
    edgeProcedure level et s = s.quiet := by
  simp [edgeProcedure, hp]

/-- In DONE every operation at the ports but `RESET` keeps the registers and asks for no timer restart. -/
theorem exec_holdsWord_of_done {i : Instr} {s t : State} (hp : s.phase = .done)
    (hi : i = .idle ∨ i = .poll ∨ ∃ level et, i = .edge level et) (h : exec i s = .next t) :
    HoldsWord s t ∧ t.tmrRestart = false := by
  rcases hi with rfl | rfl | ⟨level, et, rfl⟩
  · injection h with h
    subst h
    exact ⟨⟨rfl, .inl rfl⟩, rfl⟩
  · injection h with h
    subst h
    exact ⟨⟨rfl, .inr rfl⟩, rfl⟩
  · rw [exec_edge, edgeProcedure_of_done level et (by simpa using hp)] at h
    injection h with h
    subst h
    exact ⟨⟨rfl, .inl rfl⟩, rfl⟩

/-! ### Cycles without `RESET` -/

/-- No request word among the coming cycles selects `RESET`. -/
def NoReset (cycles : List PortCycle) : Prop := ∀ c ∈ cycles, decode (.req c.req) ≠ .ok .reset

theorem NoReset.drop {cycles : List PortCycle} (h : NoReset cycles) (n : Nat) : NoReset (cycles.drop n) :=
  fun c hc => h c (List.mem_of_mem_drop hc)

/-- A cycle's operation is `RESET` only where its request word selects it (30_encoding.md R58). -/
theorem cycleInstr_ne_reset {c : PortCycle} (h : decode (.req c.req) ≠ .ok .reset) : cycleInstr c ≠ .reset := by
  have hreq : decodeReq c.req ≠ .reset := fun he => h (congrArg Except.ok he)
  unfold cycleInstr
  split_ifs
  · simp
  · exact hreq

/-- Without a `RESET` to come, the next operation is one of the other three at the ports. -/
theorem fetch_fst_cases_of_noReset {s : State} (h : NoReset s.inputs) :
    (fetch s).1 = .idle ∨ (fetch s).1 = .poll ∨ ∃ level et, (fetch s).1 = .edge level et := by
  cases hin : s.inputs with
  | nil => exact .inl (by rw [fetch_nil hin])
  | cons c rest =>
    rw [fetch_cons hin]
    exact (cycleInstr_cases c).resolve_left (cycleInstr_ne_reset (h c (by simp [hin])))

/-- A fetch writes no register, and a sample in its cycle takes the word of the state before it (20_memory.md R49). -/
theorem fetch_snd_holdsWord (s : State) : HoldsWord s (fetch s).2 := by
  cases hin : s.inputs with
  | nil => rw [fetch_nil hin]; exact .refl s
  | cons c rest =>
    rw [fetch_cons hin]
    cases c.sample
    · exact ⟨rfl, .inl rfl⟩
    · exact ⟨rfl, .inr rfl⟩

/-! ### A step, a run -/

/-- One cycle in DONE without `RESET`. -/
theorem step_holdsWord_of_done {s : State} (hp : s.phase = .done) (hin : NoReset s.inputs) :
    ∃ t, step s = .next t ∧ HoldsWord s t ∧ t.tmrRestart = false ∧ NoReset t.inputs := by
  obtain ⟨t, ht, hinputs⟩ := step_isNext s
  have hfetch := fetch_snd_holdsWord s
  obtain ⟨hexec, htmr⟩ :=
    exec_holdsWord_of_done (hfetch.phase.trans hp) (fetch_fst_cases_of_noReset hin) ht
  exact ⟨t, ht, hfetch.trans hexec, htmr, hinputs ▸ hin.drop 1⟩

/-- Any number of cycles in DONE without `RESET`. The restart output is 0 at the end if it was 0 at the start or a cycle
has passed, which is what the induction carries from the first cycle on. -/
theorem runSteps_holdsWord_of_done (k : Nat) :
    ∀ {s : State}, s.phase = .done → NoReset s.inputs →
      ∃ t, runSteps k s = .next t ∧ HoldsWord s t ∧ (s.tmrRestart = false ∨ 1 ≤ k → t.tmrRestart = false) := by
  induction k with
  | zero =>
    intro s _ _
    exact ⟨s, runSteps_zero s, .refl s, by simp⟩
  | succ k ih =>
    intro s hp hin
    obtain ⟨u, hu, hsu, htmr, hin'⟩ := step_holdsWord_of_done hp hin
    obtain ⟨t, ht, hut, hquiet⟩ := ih (hsu.phase.trans hp) hin'
    exact ⟨t, (runSteps_succ k hu).trans ht, hsu.trans hut, fun _ => hquiet (.inl htmr)⟩

/-- Settles O15: in DONE every cycle but `RESET` keeps the registers, so by induction over the cycles the response word
and every sample of it stay the same. -/
theorem polledWordStaysUntilReset : Obligations.PolledWordStaysUntilReset := by
  unfold Obligations.PolledWordStaysUntilReset
  intro k s hp hin
  obtain ⟨t, ht, hword, htmr⟩ := runSteps_holdsWord_of_done k hp hin
  exact ⟨t, ht, hword.regs, rspWord_eq_of_regsOf hword.regs, hword.sample, fun hk => htmr (.inr hk)⟩

end Sys2Proof
end

section
/-! PROOFS. The pulse-width classifier (40_timing_classifier.md R80, R82): its three classes are the three ranges, it
drives `DSP[5:4]` by them, it writes no register, and `EDGE` abandons on INVALID everywhere but in DONE. -/

namespace Sys2Proof

open Machine

/-! ### The classes are the ranges -/

/-- The three ranges leave no time out, and each gives its own class. -/
theorem classify_cases (et : Elapsed) :
    (IsShort et ∧ classify et = .short) ∨ (IsLong et ∧ classify et = .long) ∨
      (IsInvalid et ∧ classify et = .invalid) := by
  have hcover : IsShort et ∨ IsLong et ∨ IsInvalid et := by omega
  rcases hcover with h | h | h
  · exact .inl ⟨h, classify_of_short h⟩
  · exact .inr (.inl ⟨h, classify_of_long h⟩)
  · exact .inr (.inr ⟨h, classify_of_invalid h⟩)

theorem classify_eq_short_iff (et : Elapsed) : classify et = .short ↔ IsShort et := by
  refine ⟨fun hc => ?_, classify_of_short⟩
  rcases classify_cases et with ⟨h, -⟩ | ⟨-, h⟩ | ⟨-, h⟩
  · exact h
  · simp [h] at hc
  · simp [h] at hc

theorem classify_eq_long_iff (et : Elapsed) : classify et = .long ↔ IsLong et := by
  refine ⟨fun hc => ?_, classify_of_long⟩
  rcases classify_cases et with ⟨-, h⟩ | ⟨h, -⟩ | ⟨-, h⟩
  · simp [h] at hc
  · exact h
  · simp [h] at hc

theorem classify_eq_invalid_iff (et : Elapsed) : classify et = .invalid ↔ IsInvalid et := by
  refine ⟨fun hc => ?_, classify_of_invalid⟩
  rcases classify_cases et with ⟨-, h⟩ | ⟨-, h⟩ | ⟨h, -⟩
  · simp [h] at hc
  · simp [h] at hc
  · exact h

/-! ### What the classifier drives -/

/-- Every bit of the dispatch word (30_encoding.md R60). -/
theorem dspWord_getLsbD (w : Wires) (p : Phase) (j : Nat) :
    (dspWord w p).getLsbD j =
      if j < 3 then p.code.getLsbD j else if j = 3 then w.level else if j = 4 then w.long
      else decide (j = 5) && w.inv := by
  by_cases hj : 5 < j
  · simp [BitVec.getLsbD_of_ge _ j hj, show ¬j < 3 by omega, show j ≠ 3 by omega, show j ≠ 4 by omega,
      show j ≠ 5 by omega]
  · have hword : (dspWord w p).getLsbD j = BitVec.getLsbD (w := 1 + 1 + 1 + 3)
        (BitVec.ofBool w.inv ++ BitVec.ofBool w.long ++ BitVec.ofBool w.level ++ p.code) j := rfl
    have hfields : j < 3 ∨ j = 3 ∨ j = 4 ∨ j = 5 := by omega
    rw [hword, BitVec.getLsbD_append, BitVec.getLsbD_append, BitVec.getLsbD_append]
    rcases hfields with h | rfl | rfl | rfl
    · simp [h]
    all_goals simp

theorem wiresOf_inv_eq_true_iff (cls : TimingClass) (level : Level) :
    (wiresOf cls level).inv = true ↔ cls = .invalid := decide_eq_true_iff

theorem wiresOf_long_eq_true_iff (cls : TimingClass) (level : Level) :
    (wiresOf cls level).long = true ↔ cls = .long := decide_eq_true_iff

/-! ### The effect on the registers -/

/-- Each row of `classify` drives the class and does nothing else. -/
theorem exec_classify {i : Instr} {et : Elapsed}
    (hi : i = .classifyShort et ∨ i = .classifyLong et ∨ i = .classifyInvalid et) (s : State) :
    exec i s = .next (s.driveClass et) := by
  rcases hi with rfl | rfl | rfl <;> rfl

/-- Driving the classifier's wires writes no register. -/
@[simp] theorem regsOf_driveClass (et : Elapsed) (s : State) : regsOf (s.driveClass et) = regsOf s := rfl

/-- Whatever the cause, an abandonment has the effect of 60_exceptions.md R160. -/
theorem abandoned_abandon (c : Cause) (s : State) : Abandoned s (s.abandon c) :=
  ⟨rfl, rfl, rfl, rfl, rfl, rfl, rfl, rfl⟩

/-- In every phase but DONE the procedure abandons on INVALID: in codes 6 and 7 because of the phase
(41_edge_operation.md R120), in the named phases because of the time (41_edge_operation.md R98). -/
theorem edgeProcedure_abandons_of_invalid (level : Level) {et : Elapsed} {s : State} (hp : s.phase ≠ .done)
    (hc : classify et = .invalid) : ∃ c, edgeProcedure level et s = s.abandon c := by
  rcases edgeProcedure_cases level et s with ⟨h, -⟩ | ⟨-, -, h⟩ | ⟨-, -, -, h⟩ | ⟨-, h, -⟩ | ⟨-, h, -⟩ |
    ⟨_, -, h, -⟩ | ⟨_, _, -, h, -⟩
  · exact absurd h hp
  · exact ⟨.protocol, h⟩
  · exact ⟨.timing, h⟩
  · exact absurd hc h
  · exact absurd hc h
  · simp [hc] at h
  · simp [hc] at h

theorem exec_edge_abandoned_of_invalid (level : Level) {et : Elapsed} {s : State} (hp : s.phase ≠ .done)
    (hc : classify et = .invalid) : ∃ t, exec (.edge level et) s = .next t ∧ Abandoned s t := by
  obtain ⟨c, h⟩ := edgeProcedure_abandons_of_invalid level (s := s.drive (wiresOf (classify et) level)) hp hc
  exact ⟨_, (exec_edge level et s).trans (congrArg _ h), abandoned_abandon c _⟩

/-! ### The statements -/

/-- Settles O17: the ranges, the two wires, the frame of the `classify` rows, and the abandonment on INVALID. -/
theorem classifierRanges : Obligations.ClassifierRanges := by
  unfold Obligations.ClassifierRanges
  refine ⟨fun et => ⟨classify_eq_short_iff et, classify_eq_long_iff et, classify_eq_invalid_iff et⟩,
    fun et level p => ⟨?_, ?_⟩, fun s et i hi => ⟨_, exec_classify hi s, regsOf_driveClass et s⟩,
    fun s level et hp hc => exec_edge_abandoned_of_invalid level hp hc⟩
  · rw [dspWord_getLsbD]
    simp [wiresOf_inv_eq_true_iff, classify_eq_invalid_iff]
  · rw [dspWord_getLsbD]
    simp [wiresOf_long_eq_true_iff, classify_eq_long_iff]

/-- Settles O18: the six bounds by the range each lies in; a time is valid exactly when it is in no part of the INVALID
range, because SHORT ends at 1333 and LONG begins at 1334. -/
theorem classifierBoundsAreInclusive : Obligations.ClassifierBoundsAreInclusive := by
  unfold Obligations.ClassifierBoundsAreInclusive
  refine ⟨classify_of_invalid (by decide), classify_of_short (by decide), classify_of_short (by decide),
    classify_of_long (by decide), classify_of_long (by decide), classify_of_invalid (by decide), fun et => ?_⟩
  rw [Ne, classify_eq_invalid_iff]
  omega

end Sys2Proof
end

section
/-! PROOFS. The transition table's two laws (41_edge_operation.md R101), and the bit commit that an `EDGE` makes when it
enters a mid-phase (41_edge_operation.md R110, R111): from a working phase, in the cases of the dispatch map, and at the
first edge. -/

namespace Sys2Proof

open Machine

/-! ### The table by timing class -/

/-- A valid class has one event code for each level (40_timing_classifier.md R85). -/
theorem exists_event_iff {cls : TimingClass} {low high : EventCode} (hlow : event .low cls = some low)
    (hhigh : event .high cls = some high) (P : EventCode → Prop) :
    (∃ level ev, event level cls = some ev ∧ P ev) ↔ P low ∨ P high := by
  constructor
  · rintro ⟨_ | _, ev, hev, hP⟩
    · exact .inl (Option.some.inj (hev.symm.trans hlow) ▸ hP)
    · exact .inr (Option.some.inj (hev.symm.trans hhigh) ▸ hP)
  · rintro (h | h)
    · exact ⟨.low, low, hlow, h⟩
    · exact ⟨.high, high, hhigh, h⟩

/-- Settles O23: the two event codes of a class, looked up in the row of each phase. -/
theorem tableObeysTheTwoLaws : Obligations.TableObeysTheTwoLaws := by
  unfold Obligations.TableObeysTheTwoLaws
  refine ⟨fun p nxt => ?_, fun p nxt => ?_⟩
  · rw [exists_event_iff (cls := .short) rfl rfl (transition p · = some nxt)]
    cases p <;> simp [transition, eq_comm]
  · rw [exists_event_iff (cls := .long) rfl rfl (transition p · = some nxt)]
    cases p <;> simp [transition, eq_comm]

/-! ### What an EDGE runs -/

/-- A working phase is a named one, and a session has begun in it. -/
theorem named_and_ne_initial_of_working {p : Phase} (h : p.working = true) : p.named = true ∧ p ≠ .initial := by
  cases p <;> simp [Phase.working, Phase.named] at h ⊢

/-- A legal entry of the table brings the procedure to its steps 7 to 9 (41_edge_operation.md R96): the entry's row is
that of a working phase, so none of the earlier steps ends the operation. -/
theorem edgeProcedure_of_transition {level : Level} {et : Elapsed} {s : State} {ev : EventCode} {nxt : Phase}
    (hev : event level (classify et) = some ev) (hT : transition s.phase ev = some nxt) :
    edgeProcedure level et s = s.advance nxt := by
  obtain ⟨hwork, -⟩ := transition_working hT
  have hdone := ne_done_of_working hwork
  obtain ⟨hnamed, hinit⟩ := named_and_ne_initial_of_working hwork
  simp [edgeProcedure, hdone, hnamed, hinit, hev, hT]

theorem exec_edge_of_transition {level : Level} {et : Elapsed} {s : State} {ev : EventCode} {nxt : Phase}
    (hev : event level (classify et) = some ev) (hT : transition s.phase ev = some nxt) :
    exec (.edge level et) s = .next ((s.drive (wiresOf (classify et) level)).advance nxt) := by
  rw [exec_edge, edgeProcedure_of_transition hev (by simpa using hT)]

theorem classify_ne_invalid_of_valid {et : Elapsed} (h : IsShort et ∨ IsLong et) : classify et ≠ .invalid := by
  rw [Ne, classify_eq_invalid_iff]
  omega

/-- The first edge of a session to high, SHORT or LONG (41_edge_operation.md R103). -/
theorem exec_edge_high_of_initial {et : Elapsed} {s : State} (hp : s.phase = .initial)
    (het : IsShort et ∨ IsLong et) :
    exec (.edge .high et) s = .next ((s.drive (wiresOf (classify et) .high)).firstOne.enter .midOne) := by
  obtain ⟨ev, hev⟩ := event_eq_some_of_valid (level := .high) (classify_ne_invalid_of_valid het)
  simp [edgeProcedure, hp, hev, Phase.named]

/-- The first edge of a session to low, SHORT or LONG (41_edge_operation.md R104). -/
theorem exec_edge_low_of_initial {et : Elapsed} {s : State} (hp : s.phase = .initial)
    (het : IsShort et ∨ IsLong et) :
    exec (.edge .low et) s = .next ((s.drive (wiresOf (classify et) .low)).firstZero.enter .midZero) := by
  obtain ⟨ev, hev⟩ := event_eq_some_of_valid (level := .low) (classify_ne_invalid_of_valid het)
  simp [edgeProcedure, hp, hev, Phase.named]

/-- The two cases that enter MID_ZERO are steps 7 to 9 for it: the completion check asks for `CNT` = 0 only, as the
phase entered is one that may end a frame (41_edge_operation.md R107, R115). -/
theorem exec_case_midZero {i : Instr} (hi : i = .edgeM1Ll ∨ i = .edgeS0Sl) (s : State) :
    exec i s = .next (s.advance .midZero) := by
  have hcase : exec i s = execEdgeM1Ll s := by rcases hi with rfl | rfl <;> rfl
  rw [hcase]
  by_cases h0 : s.cnt = 0
  · simp [execEdgeM1Ll, State.advance, Phase.mid, h0]
  · by_cases h1 : predCnt s.cnt = 0 <;>
      simp [execEdgeM1Ll, State.advance, State.commit, State.finish, completes, h0, h1]

/-- The two cases that enter MID_ONE are steps 7 to 9 for it: entering MID_ONE never completes a frame
(41_edge_operation.md R105, R109). -/
theorem exec_case_midOne {i : Instr} (hi : i = .edgeS1Sh ∨ i = .edgeM0Lh) (s : State) :
    exec i s = .next (s.advance .midOne) := by
  have hcase : exec i s = execEdgeS1Sh s := by rcases hi with rfl | rfl <;> rfl
  rw [hcase]
  simp [execEdgeS1Sh, State.advance, State.finish, State.commit, completes_eq_true_iff, Phase.mid]

/-! ### Bit commits -/

/-- Without an overrun the advance commits. -/
theorem advance_of_cnt_pos (nxt : Phase) {s : State} (h : 1 ≤ s.cnt.val) :
    s.advance nxt = (s.commit nxt).finish nxt := by
  rcases s.advance_cases nxt with ⟨-, h0, -⟩ | ⟨-, hadv⟩
  · simp [h0] at h
  · exact hadv

/-- The completion check and what follows it write neither `CNT` nor `CW` (41_edge_operation.md R113, R114). -/
theorem noCommit_finish (nxt : Phase) (s : State) : NoCommit s (s.finish nxt) := by
  rcases s.finish_cases nxt with ⟨-, h⟩ | ⟨-, h⟩ <;> rw [h] <;> exact ⟨rfl, rfl⟩

theorem committedZero_commitZero {s : State} (h : 1 ≤ s.cnt.val) : CommittedZero s s.commitZero :=
  ⟨Nat.sub_add_cancel h, rfl⟩

theorem committedOne_commitOne {s : State} (h : 1 ≤ s.cnt.val) : CommittedOne s s.commitOne :=
  ⟨Nat.sub_add_cancel h, fun j hj => setBit_getLsbD s.cw (predCnt s.cnt) j hj⟩

theorem committedZero_of_noCommit {s u t : State} (h : CommittedZero s u) (hut : NoCommit u t) : CommittedZero s t := by
  obtain ⟨hcnt, hcw⟩ := hut
  rw [CommittedZero, hcnt, hcw]
  exact h

theorem committedOne_of_noCommit {s u t : State} (h : CommittedOne s u) (hut : NoCommit u t) : CommittedOne s t := by
  obtain ⟨hcnt, hcw⟩ := hut
  rw [CommittedOne, hcnt, hcw]
  exact h

/-- Entering MID_ZERO from a working phase commits a 0 (41_edge_operation.md R110). -/
theorem committedZero_advance {s : State} (h : 1 ≤ s.cnt.val) : CommittedZero s (s.advance .midZero) := by
  rw [advance_of_cnt_pos .midZero h]
  exact committedZero_of_noCommit (committedZero_commitZero h) (noCommit_finish _ _)

/-- Entering MID_ONE from a working phase commits a 1 (41_edge_operation.md R111). -/
theorem committedOne_advance {s : State} (h : 1 ≤ s.cnt.val) : CommittedOne s (s.advance .midOne) := by
  rw [advance_of_cnt_pos .midOne h]
  exact committedOne_of_noCommit (committedOne_commitOne h) (noCommit_finish _ _)

theorem sameOutside_advance (nxt : Phase) (s : State) : SameOutside s (s.advance nxt) :=
  (advance_keeps nxt s).symm

/-- The first edge's commit is the commit of a 0 at `CNT` = 14 (41_edge_operation.md R104). -/
theorem firstZero_eq_commitZero {s : State} (h : s.cnt = 14) : s.firstZero = s.commitZero := by
  rw [State.firstZero, State.commitZero, h]
  rfl

/-- The first edge's commit is the commit of a 1 at `CNT` = 14 (41_edge_operation.md R103). -/
theorem firstOne_eq_commitOne {s : State} (h : s.cnt = 14) : s.firstOne = s.commitOne := by
  rw [State.firstOne, State.commitOne, h]
  rfl

theorem committedZero_firstZero {s : State} (h : s.cnt = 14) : CommittedZero s s.firstZero :=
  firstZero_eq_commitZero h ▸ committedZero_commitZero (by simp [h])

theorem committedOne_firstOne {s : State} (h : s.cnt = 14) : CommittedOne s s.firstOne :=
  firstOne_eq_commitOne h ▸ committedOne_commitOne (by simp [h])

/-- The position a commit moves to is below the old counter, where 10_state.md R27 has only zeros. -/
theorem getLsbD_eq_false_of_committedOne {s t : State} (hs : Consistent s) (h : CommittedOne s t) :
    s.cw.getLsbD t.cnt.val = false := by
  obtain ⟨-, hbelow, -⟩ := hs
  obtain ⟨hcnt, -⟩ := h
  exact hbelow _ (by omega)

/-! ### The statements -/

/-- Settles O40: the operation and its two cases run the advance to MID_ZERO, and a first edge to low makes the commit
of a 0 at `CNT` = 14. -/
theorem enteringMidZeroCommitsZero : Obligations.EnteringMidZeroCommitsZero := by
  unfold Obligations.EnteringMidZeroCommitsZero
  refine ⟨fun s level et ev hev hT hcnt => ?operation, fun s i hi hcnt => ?row, fun s et hp hcnt het => ?first⟩
  case operation => exact ⟨_, exec_edge_of_transition hev hT, committedZero_advance hcnt, sameOutside_advance _ _⟩
  case row =>
    have hrow : i = .edgeM1Ll ∨ i = .edgeS0Sl := hi.imp And.left And.left
    exact ⟨_, exec_case_midZero hrow s, committedZero_advance hcnt, sameOutside_advance _ s⟩
  case first => exact ⟨_, exec_edge_low_of_initial hp het, rfl, committedZero_firstZero hcnt, rfl, rfl⟩

/-- Settles O41: the operation and its two cases run the advance to MID_ONE, and a first edge to high makes the commit
of a 1 at `CNT` = 14; the bit it sets is below the old counter. -/
theorem enteringMidOneCommitsOne : Obligations.EnteringMidOneCommitsOne := by
  unfold Obligations.EnteringMidOneCommitsOne
  refine ⟨fun s level et ev hev hT hcnt => ?operation, fun s i hi hcnt => ?row, fun s et hp hcnt het => ?first⟩
  case operation =>
    have hone : CommittedOne s ((s.drive (wiresOf (classify et) level)).advance .midOne) := committedOne_advance hcnt
    refine ⟨_, exec_edge_of_transition hev hT, hone, sameOutside_advance _ _, ?_,
      fun hs => getLsbD_eq_false_of_committedOne hs hone⟩
    obtain ⟨hdown, -⟩ := hone
    omega
  case row =>
    have hrow : i = .edgeS1Sh ∨ i = .edgeM0Lh := hi.imp And.left And.left
    exact ⟨_, exec_case_midOne hrow s, committedOne_advance hcnt, sameOutside_advance _ s⟩
  case first => exact ⟨_, exec_edge_high_of_initial hp het, rfl, committedOne_firstOne hcnt, rfl, rfl⟩

end Sys2Proof
end

section
/-! PROOFS. `RESET` and the abandonments of `EDGE` (42_reset_poll_idle.md R142): each cause of abandonment ends the
procedure in `raise Abandon(c)`, whose register write is that of `RESET`. -/

namespace Sys2Proof

open Machine

/-! ### The register write of `RESET` and of an abandonment -/

/-- `RESET` answers in every state, with the reset write and quiet outputs (42_reset_poll_idle.md R141). -/
@[simp] theorem exec_reset (s : State) : exec .reset s = .next s.writeReset.quiet := rfl

theorem writeReset_quiet_idem (s : State) : s.writeReset.quiet.writeReset.quiet = s.writeReset.quiet := rfl

@[simp] theorem regsOf_writeReset (s : State) : regsOf s.writeReset = resetRegs := rfl

@[simp] theorem regsOf_quiet (s : State) : regsOf s.quiet = regsOf s := rfl

@[simp] theorem regsOf_abandon (c : Cause) (s : State) : regsOf (s.abandon c) = resetRegs := rfl

/-! ### The three causes (60_exceptions.md R155) -/

/-- In a working phase, no legal entry of the table is a protocol violation (41_edge_operation.md R96 step 6). -/
theorem edgeProcedure_of_violation {level : Level} {et : Elapsed} {s : State} {ev : EventCode}
    (hwork : s.phase.working = true) (hev : event level (classify et) = some ev)
    (hT : transition s.phase ev = none) : edgeProcedure level et s = s.abandon .protocol := by
  have hdone := ne_done_of_working hwork
  obtain ⟨hnamed, hinit⟩ := named_and_ne_initial_of_working hwork
  simp [edgeProcedure, hdone, hnamed, hinit, hev, hT]

/-- A bit commit that is due with the counter at 0 is an overrun (41_edge_operation.md R112). -/
theorem advance_of_overrun {nxt : Phase} {s : State} (hmid : nxt.mid = true) (hcnt : s.cnt = 0) :
    s.advance nxt = s.abandon .overrun := by
  rcases s.advance_cases nxt with ⟨-, -, h⟩ | ⟨hno, -⟩
  · exact h
  · exact absurd ⟨hmid, hcnt⟩ hno

/-- Each of the three malformed-input conditions makes the procedure abandon. -/
theorem edgeProcedure_abandons_of_malformed {level : Level} {et : Elapsed} {s : State} (h : Malformed s level et) :
    ∃ c, edgeProcedure level et s = s.abandon c := by
  rcases h with ⟨hp, het⟩ | ⟨hwork, ev, hev, hT⟩ | ⟨ev, nxt, hev, hT, hmid, hcnt⟩
  · exact edgeProcedure_abandons_of_invalid level hp (classify_of_invalid het)
  · exact ⟨.protocol, edgeProcedure_of_violation hwork hev hT⟩
  · exact ⟨.overrun, (edgeProcedure_of_transition hev hT).trans (advance_of_overrun hmid hcnt)⟩

/-- The wires an `EDGE` drives first take no part in the conditions, so the operation abandons as the procedure does. -/
theorem exec_edge_of_malformed {level : Level} {et : Elapsed} {s : State} (h : Malformed s level et) :
    ∃ c, exec (.edge level et) s = .next ((s.drive (wiresOf (classify et) level)).abandon c) := by
  have hdriven : Malformed (s.drive (wiresOf (classify et) level)) level et := h
  obtain ⟨c, hc⟩ := edgeProcedure_abandons_of_malformed hdriven
  exact ⟨c, (exec_edge level et s).trans (congrArg _ hc)⟩

/-! ### The statement -/

/-- Settles O8: the reset write is idempotent, does not read the registers it is made over, and is the register write
of every abandonment. -/
theorem resetIsIdempotentAndIsTheAbandonment : Obligations.ResetIsIdempotentAndIsTheAbandonment := by
  unfold Obligations.ResetIsIdempotentAndIsTheAbandonment
  refine ⟨fun s t h => ?twice, fun s s' => ?anyPhase, fun s level et hmal => ?abandonment⟩
  case twice =>
    rw [exec_reset] at h
    injection h with h
    rw [← h, exec_reset, writeReset_quiet_idem]
  case anyPhase => exact ⟨_, _, exec_reset s, exec_reset s', by simp⟩
  case abandonment =>
    obtain ⟨c, hc⟩ := exec_edge_of_malformed hmal
    exact ⟨_, _, hc, exec_reset s, by simp⟩

end Sys2Proof
end

section
/-! PROOFS. The exceptions (60_exceptions.md R159, R160, R174): an `EDGE` ends in INITIAL only by abandoning, an
abandonment shows what `RESET` shows, and a `POLL` before completion is none. -/

namespace Sys2Proof

open Machine

/-! ### The only way of an EDGE to INITIAL -/

/-- Steps 8 and 9 of `EDGE` reach DONE or the phase entered (41_edge_operation.md R113, R114). -/
theorem finish_phase_ne_initial {nxt : Phase} (hn : nxt ≠ .initial) (s : State) : (s.finish nxt).phase ≠ .initial := by
  rcases s.finish_cases nxt with ⟨-, h⟩ | ⟨-, h⟩ <;> rw [h]
  · simp
  · exact hn

/-- Steps 7 to 9 reach INITIAL by an overrun only (41_edge_operation.md R112). -/
theorem overrun_of_advance_phase_initial {nxt : Phase} {s : State} (hn : nxt ≠ .initial)
    (h : (s.advance nxt).phase = .initial) : nxt.mid = true ∧ s.cnt = 0 := by
  rcases s.advance_cases nxt with ⟨hmid, hcnt, -⟩ | ⟨-, hadv⟩
  · exact ⟨hmid, hcnt⟩
  · rw [hadv] at h
    exact absurd h (finish_phase_ne_initial hn _)

/-- An `EDGE` that ends in INITIAL met a malformed-input condition or found phase code 6 or 7: in DONE it leaves the
phase alone, and the first edge, entry and completion each lead to another phase. -/
theorem malformed_of_edgeProcedure_phase_initial {level : Level} {et : Elapsed} {s : State}
    (h : (edgeProcedure level et s).phase = .initial) : Malformed s level et ∨ s.phase.named = false := by
  rcases edgeProcedure_cases level et s with ⟨hp, he⟩ | ⟨-, hcode, -⟩ | ⟨hp, -, hc, -⟩ | ⟨-, -, -, he⟩ |
    ⟨-, -, -, he⟩ | ⟨ev, hwork, hev, hT, -⟩ | ⟨ev, nxt, -, hev, hT, he⟩
  · simp [he, hp] at h
  · exact .inr hcode
  · exact .inl (.inl ⟨hp, (classify_eq_invalid_iff et).mp hc⟩)
  · simp [he] at h
  · simp [he] at h
  · exact .inl (.inr (.inl ⟨hwork, ev, hev, hT⟩))
  · obtain ⟨-, hinit⟩ := named_and_ne_initial_of_working (transition_working hT).2
    obtain ⟨hmid, hcnt⟩ := overrun_of_advance_phase_initial hinit (he ▸ h)
    exact .inl (.inr (.inr ⟨ev, nxt, hev, hT, hmid, hcnt⟩))

/-- Phase codes 6 and 7 abandon whatever the operands (41_edge_operation.md R120). -/
theorem edgeProcedure_of_not_named {s : State} (level : Level) (et : Elapsed) (h : s.phase.named = false) :
    edgeProcedure level et s = s.abandon .protocol := by
  have hp : s.phase ≠ .done := by
    intro hd
    simp [hd, Phase.named] at h
  simp [edgeProcedure, hp, h]

/-- The procedure ends in INITIAL only by abandoning. -/
theorem edgeProcedure_abandons_of_phase_initial {level : Level} {et : Elapsed} {s : State}
    (h : (edgeProcedure level et s).phase = .initial) : ∃ c, edgeProcedure level et s = s.abandon c := by
  rcases malformed_of_edgeProcedure_phase_initial h with hmal | hcode
  · exact edgeProcedure_abandons_of_malformed hmal
  · exact ⟨.protocol, edgeProcedure_of_not_named level et hcode⟩

/-- Settles O42: each cause makes the operation abandon; from a named phase no other way leads to INITIAL, as the wires
driven first take no part in the conditions. -/
theorem everyMalformedInputAbandons : Obligations.EveryMalformedInputAbandons := by
  unfold Obligations.EveryMalformedInputAbandons
  refine ⟨fun s level et hmal => ?abandons, fun s level et t hnamed hexec hp => ?nothingElse⟩
  case abandons =>
    obtain ⟨c, hc⟩ := exec_edge_of_malformed hmal
    exact ⟨_, hc, abandoned_abandon c _⟩
  case nothingElse =>
    rw [exec_edge] at hexec
    injection hexec with ht
    subst ht
    rcases malformed_of_edgeProcedure_phase_initial hp with hmal | hcode
    · exact hmal
    · rw [State.drive_phase, hnamed] at hcode
      cases hcode

/-! ### A POLL before completion -/

/-- `POLL` answers in every state: it takes the response word, with quiet outputs (42_reset_poll_idle.md R145). -/
@[simp] theorem exec_poll (s : State) : exec .poll s = .next s.takeSample.quiet := rfl

/-- Settles O13: the word taken is the response word, which is 0 while `READY` = 0; the rest is kept. -/
theorem staleReadIsNoError : Obligations.StaleReadIsNoError := by
  unfold Obligations.StaleReadIsNoError
  intro s hr
  have hsample : s.takeSample.quiet.sample = 0 := rspWord_of_not_ready hr
  exact ⟨_, exec_poll s, hsample, rfl, rfl, rfl, rfl⟩

/-! ### What an abandonment shows -/

/-- The outputs of 30_encoding.md R56 are functions of the registers. -/
theorem portsOf_eq_of_regsOf {s t : State} (h : regsOf t = regsOf s) : portsOf t = portsOf s := by
  obtain ⟨hcw, -, hphase, hready⟩ := Regs.mk.inj h
  simp only [portsOf, readyOut, pollValid, pollData, edgeEn, hcw, hphase, hready]

/-- With the reset values in the registers nothing of a session is shown. -/
theorem portsOf_of_resetRegs {s : State} (h : regsOf s = resetRegs) : portsOf s = ⟨false, false, 0, true⟩ :=
  (portsOf_eq_of_regsOf (s := State.reset) h).trans (by decide)

/-- Settles O48: an `EDGE` that ends in INITIAL abandoned, so it leaves the registers of `RESET`, and the outputs
follow them. -/
theorem abandonmentIsSilent : Obligations.AbandonmentIsSilent := by
  unfold Obligations.AbandonmentIsSilent
  intro s level et t u hedge hp hreset
  rw [exec_edge] at hedge
  rw [exec_reset] at hreset
  injection hedge with ht
  injection hreset with hu
  subst ht hu
  obtain ⟨c, hc⟩ := edgeProcedure_abandons_of_phase_initial hp
  rw [hc]
  exact ⟨portsOf_eq_of_regsOf (by simp), portsOf_of_resetRegs (regsOf_abandon _ _), by simp, by simp, by simp⟩

end Sys2Proof
end

section
/-! PROOFS. The decoder (30_encoding.md): which request word selects what, by its value (R58); the dispatch map's rows
(R61); the round trip of the encoder, with the 26 words it writes. -/

namespace Sys2Proof

open Machine

/-! ### Request words by value (30_encoding.md R58) -/

/-- A bit of a word, by division of the word's value. -/
theorem getLsbD_eq_decide_div_mod {n : Nat} (w : BitVec n) (j : Nat) :
    w.getLsbD j = decide (w.toNat / 2 ^ j % 2 = 1) := by
  rw [BitVec.getLsbD, Nat.testBit_eq_decide_div_mod_eq]

/-- `rst_req` is the highest bit. -/
theorem reqWord_getLsbD_66 (w : ReqWord) : w.getLsbD 66 = decide (2 ^ 66 ≤ w.toNat) := by
  have hw := w.isLt
  rw [getLsbD_eq_decide_div_mod, decide_eq_decide]
  omega

/-- Below `rst_req`, `edge_valid` is the highest bit. -/
theorem reqWord_getLsbD_65 {w : ReqWord} (h : w.toNat < 2 ^ 66) : w.getLsbD 65 = decide (2 ^ 65 ≤ w.toNat) := by
  rw [getLsbD_eq_decide_div_mod, decide_eq_decide]
  omega

/-- The level of an edge is the bit below `edge_valid`. -/
theorem reqWord_getLsbD_64 {w : ReqWord} (hlo : 2 ^ 65 ≤ w.toNat) (hhi : w.toNat < 2 ^ 66) :
    w.getLsbD 64 = decide (2 ^ 65 + 2 ^ 64 ≤ w.toNat) := by
  rw [getLsbD_eq_decide_div_mod, decide_eq_decide]
  omega

theorem decodeReq_of_reset_bit {w : ReqWord} (h : 2 ^ 66 ≤ w.toNat) : decodeReq w = .reset := by
  rw [decodeReq, reqWord_getLsbD_66, decide_eq_true h, if_pos rfl]

theorem decodeReq_of_no_bit {w : ReqWord} (h : w.toNat < 2 ^ 65) : decodeReq w = .idle := by
  have h66 : w.toNat < 2 ^ 66 := by omega
  rw [decodeReq, reqWord_getLsbD_66, reqWord_getLsbD_65 h66]
  simp only [decide_eq_true_eq]
  rw [if_neg (by omega), if_neg (by omega)]

theorem decodeReq_of_edge_bit {w : ReqWord} (hlo : 2 ^ 65 ≤ w.toNat) (hhi : w.toNat < 2 ^ 66) :
    decodeReq w = .edge (Level.ofBit (w.getLsbD 64)) (w.extractLsb' 0 64) := by
  rw [decodeReq, reqWord_getLsbD_66, reqWord_getLsbD_65 hhi]
  simp only [decide_eq_true_eq]
  rw [if_neg (by omega), if_pos hlo]

theorem ofBit_eq_high_iff (b : Bool) : Level.ofBit b = .high ↔ b = true := by
  cases b <;> simp [Level.ofBit]

/-- Settles O2: each of the three ranges of values fixes the two request bits. -/
theorem requestWordSelectsOneOperation : Obligations.RequestWordSelectsOneOperation := by
  unfold Obligations.RequestWordSelectsOneOperation
  refine fun w => ⟨fun h => congrArg Except.ok (decodeReq_of_reset_bit h),
    fun h => congrArg Except.ok (decodeReq_of_no_bit h), fun hlo hhi =>
      ⟨_, _, congrArg Except.ok (decodeReq_of_edge_bit hlo hhi), ?elapsed, ?level⟩⟩
  case elapsed => rw [BitVec.extractLsb'_toNat, Nat.shiftRight_zero]
  case level => rw [ofBit_eq_high_iff, reqWord_getLsbD_64 hlo hhi, decide_eq_true_eq]

/-! ### The dispatch map (30_encoding.md R61) -/

/-- Every dispatch word fits one row of the map, and one only. -/
theorem countP_fits_eq_one : ∀ w : DspWord, dspTable.countP (fun r => r.fits w) = 1 := by decide

/-- A word that fits a row is decoded. -/
theorem decodeDsp_isOk (w : DspWord) : ∃ i, decodeDsp w = .ok i := by
  have hrow : ∃ r ∈ dspTable, r.fits w = true :=
    List.countP_pos_iff.mp (by rw [countP_fits_eq_one w]; exact Nat.one_pos)
  obtain ⟨r, hr⟩ := Option.isSome_iff_exists.mp (List.find?_isSome.mpr hrow)
  exact ⟨r.instr, by simp only [decodeDsp, hr]⟩

/-- Settles O3: the rows are counted for each of the 64 words, and the row found is the operation. -/
theorem dispatchRowsPartitionTheWords : Obligations.DispatchRowsPartitionTheWords := by
  unfold Obligations.DispatchRowsPartitionTheWords
  exact ⟨countP_fits_eq_one, decodeDsp_isOk⟩

/-- Settles O4: the nine words, each by evaluating the decoder. -/
theorem writtenWordsDecode : Obligations.WrittenWordsDecode := by
  unfold Obligations.WrittenWordsDecode
  decide

/-! ### The round trip -/

/-- The operations without a bit pattern: the rows of the pure functions (30_encoding.md R63). -/
def PureFunctionRow (i : Instr) : Prop :=
  (∃ et, i = .classifyShort et) ∨ (∃ et, i = .classifyLong et) ∨ (∃ et, i = .classifyInvalid et) ∨
    ∃ level cls, i = .event level cls

theorem encode_eq_none_iff (i : Instr) : encode i = none ↔ PureFunctionRow i := by
  cases i <;> simp [encode, PureFunctionRow]

/-- The word written for an operation decodes to it: an edge word by its fields, whatever the operands, and each of the
other words by evaluating the decoder. -/
theorem decode_of_encode {i : Instr} {w : PortWord} (h : encode i = some w) : decode w = .ok i := by
  cases i
  case edge level et =>
    rw [← Option.some.inj h]
    exact congrArg Except.ok (decodeReq_edgeWord level et)
  case classifyShort | classifyLong | classifyInvalid | event => cases h
  all_goals
    rw [← Option.some.inj h]
    decide

/-- Settles O1: the round trip holds of every operation that has a word, and the rows without one are those of the pure
functions. -/
theorem decodeOfEncodeGivesTheInstruction : Obligations.DecodeOfEncodeGivesTheInstruction := by
  unfold Obligations.DecodeOfEncodeGivesTheInstruction
  exact ⟨fun _ _ _ h => decode_of_encode h, encode_eq_none_iff⟩

end Sys2Proof
end

section
/-! PROOFS. `RESET`, `IDLE`, `POLL`, the cycle around an operation, and runs (42_reset_poll_idle.md). -/

namespace Sys2Proof

open Machine

/-! ### The operations other than EDGE -/

/-- `IDLE` answers in every state, with quiet outputs (42_reset_poll_idle.md R143). -/
@[simp] theorem exec_idle (s : State) : exec .idle s = .next s.quiet := rfl

/-- Settles O7: the reset write, and the outputs that follow it. -/
theorem resetWritesTheFourRegisters : Obligations.ResetWritesTheFourRegisters := by
  unfold Obligations.ResetWritesTheFourRegisters
  intro s
  have hrsp : rspWord s.writeReset.quiet = 0 := rspWord_of_not_ready rfl
  exact ⟨_, exec_reset s, rfl, rfl, rfl, rfl, rfl, rfl, hrsp, rfl, rfl⟩

/-- Settles O10: quiet outputs are all that `IDLE` brings. -/
theorem idleWritesNoRegister : Obligations.IdleWritesNoRegister := by
  unfold Obligations.IdleWritesNoRegister
  exact fun s => ⟨_, exec_idle s, rfl, rfl, rfl, rfl, rfl, rfl, rfl⟩

/-- Settles O12: the sample is the response word, read bit by bit. -/
theorem pollTakesTheResponseWord : Obligations.PollTakesTheResponseWord := by
  unfold Obligations.PollTakesTheResponseWord
  intro s
  have hbit (j : Nat) : s.takeSample.quiet.sample.getLsbD j =
      if j < 14 then (s.ready && s.cw.getLsbD j) else (s.ready && decide (j = 16)) := rspWord_getLsbD s j
  refine ⟨_, exec_poll s, ?_, fun j hj => ?_, ?_, ?_, rfl, rfl, rfl⟩
  · simpa only [Nat.reduceLT, if_false, decide_true, Bool.and_true] using hbit 16
  · rw [hbit, if_pos hj]
  · simpa only [Nat.reduceLT, if_false, Nat.reduceEqDiff, decide_false, Bool.and_false] using hbit 14
  · simpa only [Nat.reduceLT, if_false, Nat.reduceEqDiff, decide_false, Bool.and_false] using hbit 15

/-! ### The cycle around an operation (log 1, log 16) -/

/-- The response word is a function of the registers, so the list taken off the inputs leaves it. -/
theorem rspWord_withInputs (cs : List PortCycle) (s : State) : rspWord (s.withInputs cs) = rspWord s :=
  rspWord_congr rfl rfl

/-- A cycle with a sample: the word of the state before it is taken first (20_memory.md R49). -/
theorem takeSample_withInputs (cs : List PortCycle) (s : State) :
    (s.withInputs cs).takeSample = { s with inputs := cs, sample := rspWord s } := by
  rw [State.takeSample, rspWord_withInputs]
  rfl

theorem step_nil {s : State} (h : s.inputs = []) : step s = exec .idle s := by
  rw [step, fetch_nil h]

/-- A cycle without a sample runs what its request word selects. -/
theorem step_request {s : State} {w : ReqWord} {rest : List PortCycle} (h : s.inputs = ⟨w, false⟩ :: rest) :
    step s = exec (decodeReq w) (s.withInputs rest) := by
  simp [step, fetch_cons h, cycleInstr]

/-- A cycle with a sample and a request other than `IDLE` takes the sample and runs the request. -/
theorem step_request_sampled {s : State} {w : ReqWord} {rest : List PortCycle} (h : s.inputs = ⟨w, true⟩ :: rest)
    (hw : decodeReq w ≠ .idle) : step s = exec (decodeReq w) (s.withInputs rest).takeSample := by
  simp [step, fetch_cons h, cycleInstr, hw]

/-- An idle cycle with a sample is `POLL` (30_encoding.md R70). -/
theorem step_idle_sampled {s : State} {w : ReqWord} {rest : List PortCycle} (h : s.inputs = ⟨w, true⟩ :: rest)
    (hw : decodeReq w = .idle) : step s = exec .poll (s.withInputs rest).takeSample := by
  simp [step, fetch_cons h, cycleInstr, hw]

/-- Settles O5: the four shapes of the first cycle. -/
theorem stepRunsTheDecodedOperation : Obligations.StepRunsTheDecodedOperation := by
  unfold Obligations.StepRunsTheDecodedOperation
  refine ⟨fun s w rest i hin hw => ?_, fun s w rest i hin hw hi => ?_, fun s w rest hin hw => ?_, fun s => step_nil⟩
  · rw [step_request hin, Except.ok.inj hw]
    rfl
  · have hreq : decodeReq w = i := Except.ok.inj hw
    rw [step_request_sampled hin (hreq ▸ hi), hreq, takeSample_withInputs]
  · rw [step_idle_sampled hin (Except.ok.inj hw), takeSample_withInputs]

/-- A cycle whose request word selects `RESET` leaves what `RESET` leaves, sampled or not. -/
theorem step_reset {s : State} {c : PortCycle} {rest : List PortCycle} (h : s.inputs = c :: rest)
    (hc : decodeReq c.req = .reset) :
    ∃ t, step s = .next t ∧ regsOf t = resetRegs ∧ t.tmrRestart = false ∧ t.inputs = rest := by
  obtain ⟨t, ht, hinputs⟩ := step_isNext s
  have hreset : step s = exec .reset (fetch s).2 := by simp [step, fetch_cons h, cycleInstr, hc]
  have hnext := hreset.symm.trans ht
  rw [exec_reset] at hnext
  injection hnext with hnext
  subst hnext
  exact ⟨_, ht, rfl, rfl, by rw [hinputs, h, List.drop_one, List.tail_cons]⟩

/-- Settles O9: with both request bits set the word is at least 2^66, which selects `RESET`. -/
theorem resetWithAnEdgeDropsTheEdge : Obligations.ResetWithAnEdgeDropsTheEdge := by
  unfold Obligations.ResetWithAnEdgeDropsTheEdge
  intro s w sample rest hin hw
  have hreset : 2 ^ 66 ≤ w.toNat := by omega
  exact step_reset hin (decodeReq_of_reset_bit hreset)

/-! ### Runs -/

/-- Settles O6: every step answers, by induction over the cycles. -/
theorem everyRunGoesOn : Obligations.EveryRunGoesOn := by
  unfold Obligations.EveryRunGoesOn
  intro k
  induction k with
  | zero => exact fun s => ⟨s, runSteps_zero s, rfl⟩
  | succ k ih =>
    intro s
    obtain ⟨u, hu, hinputs⟩ := step_isNext s
    obtain ⟨t, ht, hrest⟩ := ih u
    exact ⟨t, (runSteps_succ k hu).trans ht, by rw [hrest, hinputs, List.drop_drop, Nat.add_comm]⟩

/-- An idle cycle without a sample, whatever its ignored bits, is quiet. -/
theorem step_of_idle_cycle {s : State} (h : ∀ c ∈ s.inputs.take 1, c.sample = false ∧ c.req.toNat < 2 ^ 65) :
    step s = .next (s.withInputs (s.inputs.drop 1)).quiet := by
  cases hin : s.inputs with
  | nil =>
    rw [step_nil hin, exec_idle, List.drop_nil, ← hin]
    rfl
  | cons c rest =>
    obtain ⟨w, sample⟩ := c
    obtain ⟨rfl, hw⟩ : sample = false ∧ w.toNat < 2 ^ 65 := h ⟨w, sample⟩ (by simp [hin])
    rw [step_request hin, decodeReq_of_no_bit hw, exec_idle, List.drop_one, List.tail_cons]

/-- Settles O11: an idle cycle keeps registers and sample, by induction over the cycles. -/
theorem anyNumberOfIdleCyclesChangesNothing : Obligations.AnyNumberOfIdleCyclesChangesNothing := by
  unfold Obligations.AnyNumberOfIdleCyclesChangesNothing
  intro n
  induction n with
  | zero => exact fun s _ => ⟨s, runSteps_zero s, rfl, rfl, rfl⟩
  | succ n ih =>
    intro s hidle
    have hfirst : ∀ c ∈ s.inputs.take 1, c.sample = false ∧ c.req.toNat < 2 ^ 65 :=
      fun c hc => hidle c ((List.take_subset_take_left s.inputs (Nat.le_add_left 1 n)) hc)
    have hrest : ∀ c ∈ (s.inputs.drop 1).take n, c.sample = false ∧ c.req.toNat < 2 ^ 65 := by
      intro c hc
      rw [List.take_drop] at hc
      exact hidle c (Nat.add_comm 1 n ▸ List.mem_of_mem_drop hc)
    obtain ⟨t, ht, hregs, hsample, hinputs⟩ := ih (s.withInputs (s.inputs.drop 1)).quiet hrest
    refine ⟨t, (runSteps_succ n (step_of_idle_cycle hfirst)).trans ht, hregs, hsample, ?_⟩
    rw [hinputs, State.quiet_inputs, State.withInputs_inputs, List.drop_drop, Nat.add_comm]

end Sys2Proof
end

section
/-! PROOFS. What the outputs and the coming operations depend on (30_encoding.md R56, 70_reset_and_hazards.md R197): the
registers and the inputs, and none of the model's own fields. -/

namespace Sys2Proof

open Machine

/-! ### The outputs as functions of the registers -/

/-- Settles O56: the four outputs as their definitions read the registers; `CW` keeps its value in the wider port. -/
theorem outputsFollowTheRegisters : Obligations.OutputsFollowTheRegisters := by
  unfold Obligations.OutputsFollowTheRegisters
  refine fun s => ⟨rfl, rfl, ?data, by simp [edgeEn]⟩
  cases hr : s.ready
  · simp [pollData, hr]
  · have hfits : s.cw.toNat < 2 ^ 16 := s.cw.isLt.trans (by decide)
    simpa [pollData, hr] using hfits

/-- Settles O57: `CW` is read only where `READY` = 1, and `PHASE` only for being DONE. -/
theorem portsHideTheSession : Obligations.PortsHideTheSession := by
  unfold Obligations.PortsHideTheSession
  intro s s' hready hdone hcw
  have hdata : pollData s = pollData s' := by
    cases hr : s.ready
    · simp [pollData, ← hready, hr]
    · simp [pollData, ← hready, hcw hr]
  have hedge : edgeEn s = edgeEn s' := by simp only [edgeEn, ne_eq, hdone]
  simp only [portsOf, readyOut, pollValid, hready, hdata, hedge]

/-! ### The operations read the registers only -/

/-- The registers and the timer restart: everything of a state that an output shows. -/
def blockOf (s : State) : Regs × Bool := (regsOf s, s.tmrRestart)

theorem blockOf_eq_iff {s s' : State} :
    blockOf s = blockOf s' ↔ regsOf s = regsOf s' ∧ s.tmrRestart = s'.tmrRestart :=
  Prod.ext_iff

theorem blockOf_quiet_congr {s s' : State} (h : regsOf s = regsOf s') : blockOf s.quiet = blockOf s'.quiet :=
  congrArg (·, false) h

theorem blockOf_abandon (c : Cause) (s : State) : blockOf (s.abandon c) = (resetRegs, false) := rfl

theorem blockOf_enter_congr (p : Phase) {s s' : State} (h : regsOf s = regsOf s') :
    blockOf (s.enter p) = blockOf (s'.enter p) :=
  congrArg (fun r : Regs => (({ r with phase := p } : Regs), true)) h

theorem blockOf_complete_congr {s s' : State} (h : regsOf s = regsOf s') : blockOf s.complete = blockOf s'.complete :=
  congrArg (fun r : Regs => ((⟨r.cw, r.cnt, .done, true⟩ : Regs), false)) h

theorem regsOf_firstOne_congr {s s' : State} (h : regsOf s = regsOf s') : regsOf s.firstOne = regsOf s'.firstOne :=
  congrArg (fun r : Regs => (⟨setBit r.cw 13, 13, r.phase, r.ready⟩ : Regs)) h

theorem regsOf_firstZero_congr {s s' : State} (h : regsOf s = regsOf s') : regsOf s.firstZero = regsOf s'.firstZero :=
  congrArg (fun r : Regs => (⟨r.cw, 13, r.phase, r.ready⟩ : Regs)) h

theorem regsOf_commit_congr (nxt : Phase) {s s' : State} (h : regsOf s = regsOf s') :
    regsOf (s.commit nxt) = regsOf (s'.commit nxt) := by
  cases nxt
  case midOne =>
    exact congrArg (fun r : Regs => (⟨setBit r.cw (predCnt r.cnt), predCnt r.cnt, r.phase, r.ready⟩ : Regs)) h
  case midZero => exact congrArg (fun r : Regs => ({ r with cnt := predCnt r.cnt } : Regs)) h
  all_goals exact h

theorem blockOf_finish_congr (nxt : Phase) {s s' : State} (h : regsOf s = regsOf s') :
    blockOf (s.finish nxt) = blockOf (s'.finish nxt) := by
  have hcnt : s.cnt = s'.cnt := congrArg Regs.cnt h
  rw [State.finish, State.finish, hcnt]
  split
  · exact blockOf_complete_congr h
  · exact blockOf_enter_congr nxt h

theorem blockOf_advance_congr (nxt : Phase) {s s' : State} (h : regsOf s = regsOf s') :
    blockOf (s.advance nxt) = blockOf (s'.advance nxt) := by
  have hcnt : s.cnt = s'.cnt := congrArg Regs.cnt h
  rw [State.advance, State.advance, hcnt]
  split
  · rfl
  · exact blockOf_finish_congr nxt (regsOf_commit_congr nxt h)

theorem blockOf_edgeProcedure_congr (level : Level) (et : Elapsed) {s s' : State} (h : regsOf s = regsOf s') :
    blockOf (edgeProcedure level et s) = blockOf (edgeProcedure level et s') := by
  have hphase : s.phase = s'.phase := congrArg Regs.phase h
  simp only [edgeProcedure, hphase]
  split_ifs
  · exact blockOf_quiet_congr h
  · rfl
  · cases event level (classify et) with
    | none => rfl
    | some ev =>
      cases level
      · exact blockOf_enter_congr _ (regsOf_firstZero_congr h)
      · exact blockOf_enter_congr _ (regsOf_firstOne_congr h)
  · cases event level (classify et) with
    | none => rfl
    | some ev =>
      cases hT : transition s'.phase ev with
      | none => simp [hT, blockOf_abandon]
      | some nxt => simpa [hT] using blockOf_advance_congr nxt h

/-- Each of the four operations at the ports leaves the same registers and timer restart from the same registers. -/
theorem blockOf_exec_congr {i : Instr} (hi : i = .reset ∨ i = .idle ∨ i = .poll ∨ ∃ level et, i = .edge level et)
    {s s' t t' : State} (h : regsOf s = regsOf s') (ht : exec i s = .next t) (ht' : exec i s' = .next t') :
    blockOf t = blockOf t' := by
  rcases hi with rfl | rfl | rfl | ⟨level, et, rfl⟩ <;> injection ht with ht <;> injection ht' with ht' <;>
    subst ht ht'
  · rfl
  · exact blockOf_quiet_congr h
  · exact blockOf_quiet_congr h
  · exact blockOf_edgeProcedure_congr level et h

/-! ### A step and a run -/

/-- The operation a step runs depends on the coming inputs only. -/
theorem fetch_fst_congr {s s' : State} (h : s.inputs = s'.inputs) : (fetch s).1 = (fetch s').1 := by
  cases hin : s'.inputs with
  | nil => rw [fetch_nil hin, fetch_nil (h.trans hin)]
  | cons c rest => rw [fetch_cons hin, fetch_cons (h.trans hin)]

theorem fetch_fst_cases (s : State) :
    (fetch s).1 = .reset ∨ (fetch s).1 = .idle ∨ (fetch s).1 = .poll ∨ ∃ level et, (fetch s).1 = .edge level et := by
  cases hin : s.inputs with
  | nil => exact .inr (.inl (by rw [fetch_nil hin]))
  | cons c rest => rw [fetch_cons hin]; exact cycleInstr_cases c

theorem regsOf_fetch_snd (s : State) : regsOf (fetch s).2 = regsOf s := (fetch_snd_holdsWord s).regs

/-- Two steps with the same operation from the same registers. -/
theorem blockOf_step_congr {s s' t t' : State} (hregs : regsOf s = regsOf s') (hop : (fetch s).1 = (fetch s').1)
    (ht : step s = .next t) (ht' : step s' = .next t') : blockOf t = blockOf t' := by
  rw [step, ← hop] at ht'
  exact blockOf_exec_congr (fetch_fst_cases s)
    ((regsOf_fetch_snd s).trans (hregs.trans (regsOf_fetch_snd s').symm)) ht ht'

/-- Two runs from the same registers under the same inputs. The restart output agrees at the end if it did at the start
or a cycle has passed. -/
theorem runSteps_congr (k : Nat) :
    ∀ {s s' t t' : State}, regsOf s = regsOf s' → s.inputs = s'.inputs → runSteps k s = .next t →
      runSteps k s' = .next t' →
      regsOf t = regsOf t' ∧ (s.tmrRestart = s'.tmrRestart ∨ 1 ≤ k → t.tmrRestart = t'.tmrRestart) := by
  induction k with
  | zero =>
    intro s s' t t' hregs _ ht ht'
    rw [runSteps_zero] at ht ht'
    injection ht with ht
    injection ht' with ht'
    subst ht ht'
    exact ⟨hregs, fun h => h.resolve_right (by simp)⟩
  | succ k ih =>
    intro s s' t t' hregs hin ht ht'
    obtain ⟨u, hu, huin⟩ := step_isNext s
    obtain ⟨u', hu', huin'⟩ := step_isNext s'
    rw [runSteps_succ k hu] at ht
    rw [runSteps_succ k hu'] at ht'
    obtain ⟨hregs', htmr⟩ := blockOf_eq_iff.mp (blockOf_step_congr hregs (fetch_fst_congr hin) hu hu')
    obtain ⟨hend, hrestart⟩ := ih hregs' (by rw [huin, huin', hin]) ht ht'
    exact ⟨hend, fun _ => hrestart (.inl htmr)⟩

/-- Settles O58: by induction over the cycles, as every operation at the ports reads the registers only. -/
theorem modelFieldsNeverFeedBack : Obligations.ModelFieldsNeverFeedBack := by
  unfold Obligations.ModelFieldsNeverFeedBack
  intro k s s' t t' hregs hin ht ht'
  obtain ⟨hend, htmr⟩ := runSteps_congr k hregs hin ht ht'
  exact ⟨hend, portsOf_eq_of_regsOf hend, fun hk => htmr (.inr hk)⟩

/-! ### A sample in the cycle of a request -/

/-- No operation at the ports but `POLL` writes the sample. -/
theorem exec_request_sample (w : ReqWord) {s t : State} (h : exec (decodeReq w) s = .next t) : t.sample = s.sample := by
  unfold decodeReq at h
  split_ifs at h <;> injection h with h <;> subst h
  · rfl
  · exact (edgeProcedure_keeps _ _ _).2
  · rfl

/-- In a cycle with a sample the word taken is that of the state before the cycle (20_memory.md R49). -/
theorem step_sample {s t : State} {w : ReqWord} {rest : List PortCycle} (hin : s.inputs = ⟨w, true⟩ :: rest)
    (ht : step s = .next t) : t.sample = rspWord s := by
  by_cases hw : decodeReq w = .idle
  · rw [step_idle_sampled hin hw, exec_poll] at ht
    injection ht with ht
    subst ht
    exact rspWord_congr rfl rfl
  · rw [step_request_sampled hin hw] at ht
    rw [exec_request_sample w ht, State.takeSample_sample, rspWord_withInputs]

/-- The same cycle without the sample has the same effect on the registers and the timer restart: the request is the
same, and `POLL` is to them what `IDLE` is. -/
theorem blockOf_step_unsampled {s t u : State} {w : ReqWord} {rest : List PortCycle}
    (hin : s.inputs = ⟨w, true⟩ :: rest) (ht : step s = .next t)
    (hu : step { s with inputs := ⟨w, false⟩ :: rest } = .next u) : blockOf t = blockOf u := by
  rw [step_request rfl] at hu
  by_cases hw : decodeReq w = .idle
  · rw [step_idle_sampled hin hw, exec_poll] at ht
    rw [hw, exec_idle] at hu
    injection ht with ht
    injection hu with hu
    subst ht hu
    rfl
  · rw [step_request_sampled hin hw] at ht
    have hop : cycleInstr ⟨w, false⟩ = decodeReq w := by simp [cycleInstr]
    refine blockOf_exec_congr (hop ▸ cycleInstr_cases ⟨w, false⟩) ?_ ht hu
    rfl

/-- Settles O14: the sample is taken before the request, and no request reads it. -/
theorem sampleSeesTheStateBeforeTheCycle : Obligations.SampleSeesTheStateBeforeTheCycle := by
  unfold Obligations.SampleSeesTheStateBeforeTheCycle
  intro s w rest hin
  obtain ⟨t, ht, -⟩ := step_isNext s
  obtain ⟨u, hu, -⟩ := step_isNext { s with inputs := ⟨w, false⟩ :: rest }
  obtain ⟨hregs, htmr⟩ := blockOf_eq_iff.mp (blockOf_step_unsampled hin ht hu)
  exact ⟨t, u, ht, step_sample hin ht, hu, hregs, htmr⟩

end Sys2Proof
end

section
/-! PROOFS. The classifier's counts (40_timing_classifier.md R84), the event code (R85), the rows of the two pure
functions, and the packed table (41_edge_operation.md R102). -/

namespace Sys2Proof

open Machine

/-! ### Counting the classes -/

/-- The words with a value in a closed range are the images of the numbers of the range. -/
theorem setOf_toNat_mem_eq_image {n a b : Nat} (hb : b < 2 ^ n) :
    {x : BitVec n | a ≤ x.toNat ∧ x.toNat ≤ b} = BitVec.ofNat n '' (Finset.Icc a b : Set Nat) := by
  ext x
  simp only [Set.mem_ofPred_eq, Set.mem_image, Finset.coe_Icc, Set.mem_Icc]
  constructor
  · exact fun hx => ⟨x.toNat, hx, BitVec.eq_of_toNat_eq (by simp)⟩
  · rintro ⟨m, ⟨ha, hm⟩, rfl⟩
    rw [BitVec.toNat_ofNat, Nat.mod_eq_of_lt (hm.trans_lt hb)]
    exact ⟨ha, hm⟩

theorem ncard_setOf_toNat_mem {n a b : Nat} (hb : b < 2 ^ n) :
    Set.ncard {x : BitVec n | a ≤ x.toNat ∧ x.toNat ≤ b} = b + 1 - a := by
  have hinj : Set.InjOn (BitVec.ofNat n) (Finset.Icc a b : Set Nat) := by
    intro x hx y hy hxy
    rw [Finset.coe_Icc, Set.mem_Icc] at hx hy
    have hval := congrArg BitVec.toNat hxy
    rwa [BitVec.toNat_ofNat, BitVec.toNat_ofNat, Nat.mod_eq_of_lt (hx.2.trans_lt hb),
      Nat.mod_eq_of_lt (hy.2.trans_lt hb)] at hval
  rw [setOf_toNat_mem_eq_image hb, hinj.ncard_image, Set.ncard_coe_finset, Nat.card_Icc]

/-- The INVALID times are two ranges, one below and one above the valid times. -/
theorem setOf_classify_invalid_eq :
    {et | classify et = .invalid} =
      {et : Elapsed | 0 ≤ et.toNat ∧ et.toNat ≤ 443} ∪ {et : Elapsed | 2223 ≤ et.toNat ∧ et.toNat ≤ 2 ^ 64 - 1} := by
  ext et
  have hmax := et.isLt
  simp only [Set.mem_ofPred_eq, Set.mem_union, classify_eq_invalid_iff]
  omega

theorem ncard_classify_invalid : Set.ncard {et | classify et = .invalid} = 2 ^ 64 - 1779 := by
  have hdisjoint : Disjoint {et : Elapsed | 0 ≤ et.toNat ∧ et.toNat ≤ 443}
      {et : Elapsed | 2223 ≤ et.toNat ∧ et.toNat ≤ 2 ^ 64 - 1} := by
    rw [Set.disjoint_left]
    rintro et ⟨-, hlow⟩ ⟨hhigh, -⟩
    omega
  rw [setOf_classify_invalid_eq, Set.ncard_union_eq hdisjoint, ncard_setOf_toNat_mem (by decide),
    ncard_setOf_toNat_mem (by decide)]
  norm_num

/-- Settles O19: the ends by the range they lie in, the counts by the lengths of the ranges. -/
theorem classifierCountsAndEnds : Obligations.ClassifierCountsAndEnds := by
  unfold Obligations.ClassifierCountsAndEnds
  refine ⟨classify_of_invalid (by decide), classify_of_invalid (by decide), classify_of_invalid (by decide),
    fun et h => classify_of_invalid (.inr h), ?short, ?long, ncard_classify_invalid⟩
  case short =>
    simp only [classify_eq_short_iff]
    exact ncard_setOf_toNat_mem (by decide)
  case long =>
    simp only [classify_eq_long_iff]
    exact ncard_setOf_toNat_mem (by decide)

/-! ### The event code -/

/-- `ev[1]` is LONG and `ev[0]` the level (40_timing_classifier.md R85). -/
theorem event_number {level : Level} {cls : TimingClass} {ev : EventCode} (h : event level cls = some ev) :
    ev.number = BitVec.ofBool (decide (cls = .long)) ++ BitVec.ofBool level.bit := by
  cases cls <;> cases level <;> cases h <;> rfl

/-- An event code has one pair of operands. -/
theorem event_injective {level level' : Level} {cls cls' : TimingClass} {ev : EventCode}
    (h : event level cls = some ev) (h' : event level' cls' = some ev) : level = level' ∧ cls = cls' := by
  cases cls <;> cases level <;> cases h <;> cases cls' <;> cases level' <;> cases h' <;> exact ⟨rfl, rfl⟩

/-- Every event code has a pair of operands. -/
theorem event_surjective (ev : EventCode) : ∃ level cls, event level cls = some ev := by
  cases ev
  · exact ⟨.low, .short, rfl⟩
  · exact ⟨.high, .short, rfl⟩
  · exact ⟨.low, .long, rfl⟩
  · exact ⟨.high, .long, rfl⟩

theorem eventCode_number_surjective : ∀ n : BitVec 2, ∃ ev : EventCode, ev.number = n := by
  intro n
  have hn : n = EventCode.sl.number ∨ n = EventCode.sh.number ∨ n = EventCode.ll.number ∨ n = EventCode.lh.number := by
    revert n
    decide
  rcases hn with rfl | rfl | rfl | rfl <;> exact ⟨_, rfl⟩

/-- Settles O20: the number of the code from its two bits; every number is that of a code, every code that of one pair. -/
theorem eventCodeNumbersTheFourPairs : Obligations.EventCodeNumbersTheFourPairs := by
  unfold Obligations.EventCodeNumbersTheFourPairs
  refine ⟨fun level cls hcls => ?number, fun n => ?onto, fun _ _ _ _ _ => event_injective⟩
  case number =>
    obtain ⟨ev, hev⟩ := event_eq_some_of_valid (level := level) hcls
    refine ⟨ev, hev, ?_⟩
    rw [event_number hev]
    cases level <;> cases cls <;> decide
  case onto =>
    obtain ⟨ev, hn⟩ := eventCode_number_surjective n
    obtain ⟨level, cls, hev⟩ := event_surjective ev
    exact ⟨level, cls, ev, hev, hn⟩

/-! ### The rows of the pure functions -/

/-- What `classify` drives: `inv`, `long`, and nothing else (40_timing_classifier.md R80, R83). -/
theorem driveClass_drives {et : Elapsed} {cls : TimingClass} (h : classify et = cls) (s : State) :
    (s.driveClass et).wires.inv = decide (cls = .invalid) ∧ (s.driveClass et).wires.long = decide (cls = .long) ∧
      s.driveClass et = { s with wires := (s.driveClass et).wires } ∧
      (s.driveClass et).wires.level = s.wires.level := by
  subst h
  exact ⟨rfl, rfl, rfl, rfl⟩

/-- Settles O21: each row drives the class of its range. -/
theorem classifierRowsDriveTheirWires : Obligations.ClassifierRowsDriveTheirWires := by
  unfold Obligations.ClassifierRowsDriveTheirWires
  exact ⟨fun s et h => ⟨_, exec_classify (.inl rfl) s, driveClass_drives (classify_of_short h) s⟩,
    fun s et h => ⟨_, exec_classify (.inr (.inl rfl)) s, driveClass_drives (classify_of_long h) s⟩,
    fun s et h => ⟨_, exec_classify (.inr (.inr rfl)) s, driveClass_drives (classify_of_invalid h) s⟩⟩

/-- `DSP[4:3]` is `long`, `level` (30_encoding.md R60). -/
theorem dspWord_extractLsb'_event (w : Wires) (p : Phase) :
    (dspWord w p).extractLsb' 3 2 = BitVec.ofBool w.long ++ BitVec.ofBool w.level := by
  have hbits : ∀ (inv long level : Bool) (code : BitVec 3),
      BitVec.extractLsb' 3 2 (BitVec.ofBool inv ++ BitVec.ofBool long ++ BitVec.ofBool level ++ code : DspWord) =
        BitVec.ofBool long ++ BitVec.ofBool level := by decide
  exact hbits w.inv w.long w.level p.code

/-- Settles O22: the row drives LONG and the level, which are the bits of the event code. -/
theorem eventRowDrivesTheEventCode : Obligations.EventRowDrivesTheEventCode := by
  unfold Obligations.EventRowDrivesTheEventCode
  intro s level cls hcls
  obtain ⟨ev, hev⟩ := event_eq_some_of_valid (level := level) hcls
  refine ⟨_, ev, rfl, hev, ?_, rfl, rfl⟩
  rw [dspWord_extractLsb'_event, event_number hev]
  rfl

/-! ### The packed table -/

/-- A violation is packed as the row's own phase, every other entry as the phase it names. -/
theorem packedNext_eq {p : Phase} (hp : p.working = true) (ev : EventCode) :
    (packedNext p ev).toNat = ((transition p ev).getD p).code.toNat := by
  cases p
  case initial | done | code6 | code7 => cases hp
  all_goals cases ev <;> rfl

/-- No legal entry of the table is a self-loop. -/
theorem transition_ne_self {p nxt : Phase} {ev : EventCode} (h : transition p ev = some nxt) : nxt ≠ p := by
  rintro rfl
  cases nxt <;> cases ev <;> cases h

theorem phaseCode_toNat_injective {p q : Phase} (h : p.code.toNat = q.code.toNat) : p = q := by
  rw [← Phase.ofCode_code p, ← Phase.ofCode_code q, BitVec.eq_of_toNat_eq h]

/-- Settles O24: the packed entry is the code of the next phase, or of the row's own phase where there is none; no legal
entry is the row's own. -/
theorem packedTableGivesTheTransitionTable : Obligations.PackedTableGivesTheTransitionTable := by
  unfold Obligations.PackedTableGivesTheTransitionTable
  intro p ev hp
  rw [packedNext_eq hp]
  cases hT : transition p ev with
  | none => simp
  | some nxt =>
    have hne : nxt ≠ p := transition_ne_self hT
    refine ⟨?_, fun q hq => ?_⟩
    · have hcode : nxt.code.toNat ≠ p.code.toNat := fun h => hne (phaseCode_toNat_injective h)
      simpa using hcode
    · rw [← Option.some.inj hq]
      exact ⟨hne, rfl⟩

end Sys2Proof
end

section
/-! PROOFS. The dispatch cases of `EDGE` (30_encoding.md R61, 41_edge_operation.md): the procedure in each phase and each
case on its own have one effect, said once for steps 7 to 9 of R96; and an `EDGE` is the case its dispatch word names. -/

namespace Sys2Proof

open Machine

/-! ### The effect of a legal transition (41_edge_operation.md R96 steps 7 to 9) -/

/-- The bit commit that entering `nxt` brings (41_edge_operation.md R110, R111). -/
def CommitEffect (nxt : Phase) (s t : State) : Prop :=
  if nxt = .midOne then CommittedOne s t else if nxt = .midZero then CommittedZero s t else NoCommit s t

/-- Completion under R113's condition on the counter as the commit left it, else entry. -/
def FinishEffect (nxt : Phase) (s t : State) : Prop :=
  if t.cnt = 0 ∧ (nxt = .startOne ∨ nxt = .midZero) then Completed s t else Entered nxt s t

theorem sameOutside_commit (nxt : Phase) (s : State) : SameOutside s (s.commit nxt) := by
  cases nxt <;> exact ⟨rfl, rfl⟩

theorem commitEffect_advance {nxt : Phase} {s : State} (h : ¬(nxt.mid = true ∧ s.cnt = 0)) :
    CommitEffect nxt s (s.advance nxt) := by
  have hpos (hmid : nxt.mid = true) : 1 ≤ s.cnt.val := Nat.one_le_iff_ne_zero.mpr fun h0 => h ⟨hmid, Fin.ext h0⟩
  cases nxt
  case midOne => exact committedOne_advance (hpos rfl)
  case midZero => exact committedZero_advance (hpos rfl)
  all_goals exact noCommit_finish _ s

theorem finishEffect_advance {nxt : Phase} {s : State} (h : ¬(nxt.mid = true ∧ s.cnt = 0)) :
    FinishEffect nxt s (s.advance nxt) := by
  obtain ⟨hsample, hinputs⟩ := sameOutside_commit nxt s
  rcases s.advance_cases nxt with ⟨hmid, h0, -⟩ | ⟨-, hadv⟩
  · exact absurd ⟨hmid, h0⟩ h
  · rcases (s.commit nxt).finish_cases nxt with ⟨hc, hfin⟩ | ⟨hc, hfin⟩ <;> rw [hadv, hfin, FinishEffect]
    · rw [completes_eq_true_iff] at hc
      rw [State.complete_cnt, if_pos hc]
      exact ⟨rfl, rfl, rfl, rfl, hsample, hinputs⟩
    · rw [Bool.eq_false_iff, Ne, completes_eq_true_iff] at hc
      rw [State.enter_cnt, if_neg hc]
      exact ⟨rfl, commit_ready nxt s, rfl, hsample, hinputs⟩

/-- Entering MID_ONE: a 1 is committed, and the frame never completes. -/
theorem advance_midOne_effect {s : State} (h : 1 ≤ s.cnt.val) :
    Entered .midOne s (s.advance .midOne) ∧ CommittedOne s (s.advance .midOne) := by
  have hno : ¬(Phase.midOne.mid = true ∧ s.cnt = 0) := fun hov => by simp [hov.2] at h
  have hfin := finishEffect_advance hno
  rw [FinishEffect, if_neg (by simp)] at hfin
  exact ⟨hfin, committedOne_advance h⟩

/-- Entering MID_ZERO: overrun at `CNT` = 0; else a 0 is committed, and the frame completes if it was the last bit. -/
theorem advance_midZero_effect (s : State) :
    if s.cnt = 0 then Abandoned s (s.advance .midZero)
    else CommittedZero s (s.advance .midZero) ∧
      if s.cnt.val = 1 then Completed s (s.advance .midZero) else Entered .midZero s (s.advance .midZero) := by
  by_cases h0 : s.cnt = 0
  · rw [if_pos h0, advance_of_overrun rfl h0]
    exact abandoned_abandon _ s
  · have hcommit : CommittedZero s (s.advance .midZero) :=
      committedZero_advance (Nat.one_le_iff_ne_zero.mpr fun h => h0 (Fin.ext h))
    have hfin := finishEffect_advance (nxt := .midZero) (s := s) (fun hov => h0 hov.2)
    have hlast : (s.advance .midZero).cnt = 0 ↔ s.cnt.val = 1 := by
      rw [Fin.ext_iff, Fin.val_zero, ← hcommit.1]
      omega
    rw [if_neg h0]
    simp only [FinishEffect, hlast, or_true, and_true] at hfin
    exact ⟨hcommit, hfin⟩

/-- Entering START_ONE: nothing is committed, and the frame completes at `CNT` = 0. -/
theorem advance_startOne_effect (s : State) :
    NoCommit s (s.advance .startOne) ∧
      if s.cnt = 0 then Completed s (s.advance .startOne) else Entered .startOne s (s.advance .startOne) := by
  have hcommit : NoCommit s (s.advance .startOne) := noCommit_finish _ s
  have hfin := finishEffect_advance (nxt := .startOne) (s := s) (by simp [Phase.mid])
  simp only [FinishEffect, hcommit.1, true_or, and_true] at hfin
  exact ⟨hcommit, hfin⟩

/-- Entering START_ZERO: nothing is committed, and the frame never completes. -/
theorem advance_startZero_effect (s : State) :
    NoCommit s (s.advance .startZero) ∧ Entered .startZero s (s.advance .startZero) := by
  have hfin := finishEffect_advance (nxt := .startZero) (s := s) (by simp [Phase.mid])
  rw [FinishEffect, if_neg (by simp)] at hfin
  exact ⟨noCommit_finish _ s, hfin⟩

/-! ### The cases of the working phases -/

/-- The case that confirms a 1 is steps 7 to 9 for START_ONE (41_edge_operation.md R106). -/
theorem exec_case_startOne (s : State) : exec .edgeM1Sl s = .next (s.advance .startOne) := by
  by_cases h0 : s.cnt = 0 <;>
    simp [exec, execEdgeM1Sl, State.advance, State.commit, State.finish, completes, Phase.mid, h0]

/-- The case that confirms a 0 is steps 7 to 9 for START_ZERO (41_edge_operation.md R108). -/
theorem exec_case_startZero (s : State) : exec .edgeM0Sh s = .next (s.advance .startZero) := by
  simp [exec, execEdgeM0Sh, State.advance, State.commit, State.finish, completes, Phase.mid]

/-- The row of the dispatch map for a working phase and an event code; the rows of the other phases are not read. -/
def tableCase : Phase → EventCode → Instr
  | .startOne, .sl => .edgeS1ViolSl
  | .startOne, .sh => .edgeS1Sh
  | .startOne, .ll => .edgeS1ViolLl
  | .startOne, .lh => .edgeS1ViolLh
  | .midOne, .sl => .edgeM1Sl
  | .midOne, .sh => .edgeM1ViolSh
  | .midOne, .ll => .edgeM1Ll
  | .midOne, .lh => .edgeM1ViolLh
  | .midZero, .sl => .edgeM0ViolSl
  | .midZero, .sh => .edgeM0Sh
  | .midZero, .ll => .edgeM0ViolLl
  | .midZero, .lh => .edgeM0Lh
  | .startZero, .sl => .edgeS0Sl
  | .startZero, .sh => .edgeS0ViolSh
  | .startZero, .ll => .edgeS0ViolLl
  | .startZero, .lh => .edgeS0ViolLh
  | .initial, _ | .done, _ | .code6, _ | .code7, _ => .edgeUnreach

/-- The word formed in a working phase with valid timing decodes to its row. -/
theorem decodeDsp_tableCase {p : Phase} (hp : p.working = true) {level : Level} {cls : TimingClass} {ev : EventCode}
    (hev : event level cls = some ev) : decodeDsp (dspWord (wiresOf cls level) p) = .ok (tableCase p ev) := by
  cases p
  case initial | done | code6 | code7 => cases hp
  all_goals cases cls <;> cases level <;> cases hev <;> decide

/-- A row without a legal entry of the table raises PROTOCOL. -/
theorem exec_tableCase_of_none {p : Phase} (hp : p.working = true) {ev : EventCode} (hT : transition p ev = none)
    (s : State) : exec (tableCase p ev) s = .next (s.abandon .protocol) := by
  cases p
  case initial | done | code6 | code7 => cases hp
  all_goals cases ev <;> cases hT <;> rfl

/-- A row with a legal entry is steps 7 to 9 for its phase. -/
theorem exec_tableCase_of_some {p nxt : Phase} {ev : EventCode} (hT : transition p ev = some nxt) (s : State) :
    exec (tableCase p ev) s = .next (s.advance nxt) := by
  cases p <;> cases ev <;> cases hT
  case startOne.sh => exact exec_case_midOne (.inl rfl) s
  case midOne.sl => exact exec_case_startOne s
  case midOne.ll => exact exec_case_midZero (.inl rfl) s
  case midZero.sh => exact exec_case_startZero s
  case midZero.lh => exact exec_case_midOne (.inr rfl) s
  case startZero.sl => exact exec_case_midZero (.inr rfl) s

/-! ### The legal transitions, as operation and as row -/

/-- Settles O29: the operation and its row enter MID_ONE. -/
theorem startOneShortHighCommitsOne : Obligations.StartOneShortHighCommitsOne := by
  unfold Obligations.StartOneShortHighCommitsOne
  refine ⟨fun s et hp het hcnt => ?_, fun s hcnt => ?_, by decide⟩
  · have hev : event .high (classify et) = some .sh := congrArg (event .high) (classify_of_short het)
    exact ⟨_, exec_edge_of_transition hev (hp ▸ rfl), advance_midOne_effect hcnt⟩
  · exact ⟨_, exec_case_midOne (.inl rfl) s, advance_midOne_effect hcnt⟩

/-- Settles O30: the operation and its row enter START_ONE. -/
theorem midOneShortLowConfirmsOrCompletes : Obligations.MidOneShortLowConfirmsOrCompletes := by
  unfold Obligations.MidOneShortLowConfirmsOrCompletes
  refine ⟨fun s et hp het => ?_, fun s => ?_, by decide⟩
  · have hev : event .low (classify et) = some .sl := congrArg (event .low) (classify_of_short het)
    exact ⟨_, exec_edge_of_transition hev (hp ▸ rfl), advance_startOne_effect _⟩
  · exact ⟨_, exec_case_startOne s, advance_startOne_effect s⟩

/-- Settles O31: the operation and its row enter MID_ZERO. -/
theorem midOneLongLowCommitsZero : Obligations.MidOneLongLowCommitsZero := by
  unfold Obligations.MidOneLongLowCommitsZero
  refine ⟨fun s et hp het => ?_, fun s => ?_, by decide⟩
  · have hev : event .low (classify et) = some .ll := congrArg (event .low) (classify_of_long het)
    have heffect := advance_midZero_effect (s.drive (wiresOf (classify et) .low))
    exact ⟨_, exec_edge_of_transition hev (hp ▸ rfl), heffect⟩
  · exact ⟨_, exec_case_midZero (.inl rfl) s, advance_midZero_effect s⟩

/-- Settles O32: the operation and its row enter START_ZERO. -/
theorem midZeroShortHighConfirms : Obligations.MidZeroShortHighConfirms := by
  unfold Obligations.MidZeroShortHighConfirms
  refine ⟨fun s et hp het => ?_, fun s => ?_, by decide⟩
  · have hev : event .high (classify et) = some .sh := congrArg (event .high) (classify_of_short het)
    exact ⟨_, exec_edge_of_transition hev (hp ▸ rfl), advance_startZero_effect _⟩
  · exact ⟨_, exec_case_startZero s, advance_startZero_effect s⟩

/-- Settles O33: the operation and its row enter MID_ONE. -/
theorem midZeroLongHighCommitsOne : Obligations.MidZeroLongHighCommitsOne := by
  unfold Obligations.MidZeroLongHighCommitsOne
  refine ⟨fun s et hp het hcnt => ?_, fun s hcnt => ?_, by decide⟩
  · have hev : event .high (classify et) = some .lh := congrArg (event .high) (classify_of_long het)
    exact ⟨_, exec_edge_of_transition hev (hp ▸ rfl), advance_midOne_effect hcnt⟩
  · exact ⟨_, exec_case_midOne (.inr rfl) s, advance_midOne_effect hcnt⟩

/-- Entering MID_ZERO with a bit left to commit. -/
theorem advance_midZero_effect_of_pos {s : State} (h : 1 ≤ s.cnt.val) :
    CommittedZero s (s.advance .midZero) ∧
      if s.cnt.val = 1 then Completed s (s.advance .midZero) else Entered .midZero s (s.advance .midZero) := by
  have hne : s.cnt ≠ 0 := fun h0 => by simp [h0] at h
  have heffect := advance_midZero_effect s
  rwa [if_neg hne] at heffect

/-- Settles O34: the operation and its row enter MID_ZERO. -/
theorem startZeroShortLowCommitsZero : Obligations.StartZeroShortLowCommitsZero := by
  unfold Obligations.StartZeroShortLowCommitsZero
  refine ⟨fun s et hp het hcnt => ?_, fun s hcnt => ?_, by decide⟩
  · have hev : event .low (classify et) = some .sl := congrArg (event .low) (classify_of_short het)
    exact ⟨_, exec_edge_of_transition hev (hp ▸ rfl), advance_midZero_effect_of_pos (s := s.drive _) hcnt⟩
  · exact ⟨_, exec_case_midZero (.inr rfl) s, advance_midZero_effect_of_pos hcnt⟩

/-- Settles O43: with `CNT` = 0 the advance to a mid-phase is an overrun. -/
theorem overrunAbandonsInEveryCommittingCase : Obligations.OverrunAbandonsInEveryCommittingCase := by
  unfold Obligations.OverrunAbandonsInEveryCommittingCase
  have hoverrun {nxt : Phase} {s : State} (hmid : nxt.mid = true) (h0 : s.cnt = 0) : Abandoned s (s.advance nxt) :=
    advance_of_overrun hmid h0 ▸ abandoned_abandon _ s
  rintro s i h0 (rfl | rfl | rfl | rfl)
  · exact ⟨_, exec_case_midOne (.inl rfl) s, hoverrun rfl h0⟩
  · exact ⟨_, exec_case_midZero (.inl rfl) s, hoverrun rfl h0⟩
  · exact ⟨_, exec_case_midOne (.inr rfl) s, hoverrun rfl h0⟩
  · exact ⟨_, exec_case_midZero (.inr rfl) s, hoverrun rfl h0⟩

/-! ### The violations, as operation and as row -/

/-- An `EDGE` that meets a malformed-input condition has the effect of an abandonment. -/
theorem exec_edge_abandoned_of_malformed {level : Level} {et : Elapsed} {s : State} (h : Malformed s level et) :
    ∃ t, exec (.edge level et) s = .next t ∧ Abandoned s t := by
  obtain ⟨c, hc⟩ := exec_edge_of_malformed h
  exact ⟨_, hc, abandoned_abandon c _⟩

/-- An event without a legal entry in the row of a working phase. -/
theorem exec_edge_abandoned_of_violation {level : Level} {et : Elapsed} {cls : TimingClass} {ev : EventCode} {s : State}
    (hcls : classify et = cls) (hev : event level cls = some ev) (hp : s.phase.working = true)
    (hT : transition s.phase ev = none) : ∃ t, exec (.edge level et) s = .next t ∧ Abandoned s t :=
  exec_edge_abandoned_of_malformed (.inr (.inl ⟨hp, ev, hcls ▸ hev, hT⟩))

/-- Settles O35: the three events without an entry in the row of START_ONE. -/
theorem startOneViolations : Obligations.StartOneViolations := by
  unfold Obligations.StartOneViolations
  refine ⟨fun s level et hp het => ?operation, fun s i hi => ?row, by decide, by decide, by decide⟩
  case operation =>
    rcases het with ⟨hshort, rfl⟩ | hlong
    · exact exec_edge_abandoned_of_violation (classify_of_short hshort) rfl (hp ▸ rfl) (hp ▸ rfl)
    · cases level <;> exact exec_edge_abandoned_of_violation (classify_of_long hlong) rfl (hp ▸ rfl) (hp ▸ rfl)
  case row => rcases hi with rfl | rfl | rfl <;> exact ⟨_, rfl, abandoned_abandon .protocol s⟩

/-- Settles O36: the two events to high have no entry in the row of MID_ONE. -/
theorem midOneViolations : Obligations.MidOneViolations := by
  unfold Obligations.MidOneViolations
  refine ⟨fun s et hp het => ?operation, fun s i hi => ?row, by decide, by decide⟩
  case operation =>
    rcases het with hshort | hlong
    · exact exec_edge_abandoned_of_violation (classify_of_short hshort) rfl (hp ▸ rfl) (hp ▸ rfl)
    · exact exec_edge_abandoned_of_violation (classify_of_long hlong) rfl (hp ▸ rfl) (hp ▸ rfl)
  case row => rcases hi with rfl | rfl <;> exact ⟨_, rfl, abandoned_abandon .protocol s⟩

/-- Settles O37: the two events to low have no entry in the row of MID_ZERO. -/
theorem midZeroViolations : Obligations.MidZeroViolations := by
  unfold Obligations.MidZeroViolations
  refine ⟨fun s et hp het => ?operation, fun s i hi => ?row, by decide, by decide⟩
  case operation =>
    rcases het with hshort | hlong
    · exact exec_edge_abandoned_of_violation (classify_of_short hshort) rfl (hp ▸ rfl) (hp ▸ rfl)
    · exact exec_edge_abandoned_of_violation (classify_of_long hlong) rfl (hp ▸ rfl) (hp ▸ rfl)
  case row => rcases hi with rfl | rfl <;> exact ⟨_, rfl, abandoned_abandon .protocol s⟩

/-- Settles O38: the three events without an entry in the row of START_ZERO. -/
theorem startZeroViolations : Obligations.StartZeroViolations := by
  unfold Obligations.StartZeroViolations
  refine ⟨fun s level et hp het => ?operation, fun s i hi => ?row, by decide, by decide, by decide⟩
  case operation =>
    rcases het with ⟨hshort, rfl⟩ | hlong
    · exact exec_edge_abandoned_of_violation (classify_of_short hshort) rfl (hp ▸ rfl) (hp ▸ rfl)
    · cases level <;> exact exec_edge_abandoned_of_violation (classify_of_long hlong) rfl (hp ▸ rfl) (hp ▸ rfl)
  case row => rcases hi with rfl | rfl | rfl <;> exact ⟨_, rfl, abandoned_abandon .protocol s⟩

/-! ### DONE, INVALID timing, INITIAL, codes 6 and 7 -/

theorem decodeDsp_inert :
    ∀ w : DspWord, w.extractLsb' 0 3 = 5#3 → decodeDsp w = .ok .edgeInert := by decide

theorem decodeDsp_timingWorking :
    ∀ w : DspWord, w.getLsbD 5 = true → w.getLsbD 2 = false → decodeDsp w = .ok .edgeTimingWorking := by decide

theorem decodeDsp_timingInitial :
    ∀ w : DspWord, w.getLsbD 5 = true → w.extractLsb' 0 3 = 4#3 → decodeDsp w = .ok .edgeTimingInitial := by decide

theorem decodeDsp_firstH :
    ∀ w : DspWord, w.getLsbD 5 = false → w.extractLsb' 0 4 = 0b1100#4 → decodeDsp w = .ok .edgeFirstH := by decide

theorem decodeDsp_firstL :
    ∀ w : DspWord, w.getLsbD 5 = false → w.extractLsb' 0 4 = 0b0100#4 → decodeDsp w = .ok .edgeFirstL := by decide

theorem decodeDsp_unreach :
    ∀ w : DspWord, w.getLsbD 2 = true → w.getLsbD 1 = true → decodeDsp w = .ok .edgeUnreach := by decide

/-- Quiet outputs change no register, no sample and no input. -/
theorem unchanged_quiet (s : State) : Unchanged s s.quiet := ⟨rfl, rfl, rfl, rfl, rfl, rfl, rfl⟩

/-- Settles O25: the procedure's first step, and the row. -/
theorem edgeInDoneIsInert : Obligations.EdgeInDoneIsInert := by
  unfold Obligations.EdgeInDoneIsInert
  refine ⟨fun s level et hp => ?_, fun s => ⟨_, rfl, unchanged_quiet s⟩, decodeDsp_inert⟩
  have hdriven : (s.drive (wiresOf (classify et) level)).phase = .done := hp
  have hexec := (exec_edge level et s).trans (congrArg _ (edgeProcedure_of_done level et hdriven))
  exact ⟨_, hexec, unchanged_quiet _, by simp [edgeEn, hp]⟩

/-- Settles O26: an INVALID time is a malformed input in every phase but DONE. -/
theorem invalidTimingAbandons : Obligations.InvalidTimingAbandons := by
  unfold Obligations.InvalidTimingAbandons
  exact ⟨fun s level et hp het => exec_edge_abandoned_of_invalid level hp (classify_of_invalid het),
    fun s => ⟨_, rfl, abandoned_abandon .timing s⟩, fun s => ⟨_, rfl, abandoned_abandon .timing s⟩,
    decodeDsp_timingWorking, decodeDsp_timingInitial⟩

/-- The effect of a first edge to high (41_edge_operation.md R103). -/
theorem firstOne_enter_effect (s : State) :
    Entered .midOne s (s.firstOne.enter .midOne) ∧ (s.firstOne.enter .midOne).cnt = 13 ∧
      ∀ j, j < 14 → (s.firstOne.enter .midOne).cw.getLsbD j = (s.cw.getLsbD j || decide (j = 13)) :=
  ⟨⟨rfl, rfl, rfl, rfl, rfl⟩, rfl, fun j hj => setBit_getLsbD s.cw 13 j hj⟩

/-- The effect of a first edge to low (41_edge_operation.md R104). -/
theorem firstZero_enter_effect (s : State) :
    Entered .midZero s (s.firstZero.enter .midZero) ∧ (s.firstZero.enter .midZero).cnt = 13 ∧
      (s.firstZero.enter .midZero).cw = s.cw :=
  ⟨⟨rfl, rfl, rfl, rfl, rfl⟩, rfl, rfl⟩

/-- Settles O27: the operation and its row are the first edge to high. -/
theorem firstEdgeToHigh : Obligations.FirstEdgeToHigh := by
  unfold Obligations.FirstEdgeToHigh
  exact ⟨fun s et hp het => ⟨_, exec_edge_high_of_initial hp het, firstOne_enter_effect _⟩,
    fun s => ⟨_, rfl, firstOne_enter_effect s⟩, decodeDsp_firstH⟩

/-- Settles O28: the operation and its row are the first edge to low. -/
theorem firstEdgeToLow : Obligations.FirstEdgeToLow := by
  unfold Obligations.FirstEdgeToLow
  exact ⟨fun s et hp het => ⟨_, exec_edge_low_of_initial hp het, firstZero_enter_effect _⟩,
    fun s => ⟨_, rfl, firstZero_enter_effect s⟩, decodeDsp_firstL⟩

/-- In codes 6 and 7 an `EDGE` abandons whatever its operands. -/
theorem exec_edge_of_not_named {s : State} (level : Level) (et : Elapsed) (h : s.phase.named = false) :
    exec (.edge level et) s = .next ((s.drive (wiresOf (classify et) level)).abandon .protocol) :=
  (exec_edge level et s).trans (congrArg _ (edgeProcedure_of_not_named level et h))

/-- Settles O39: the procedure's check of the phase, and the row. -/
theorem unreachableCodesAbandon : Obligations.UnreachableCodesAbandon := by
  unfold Obligations.UnreachableCodesAbandon
  refine ⟨fun s level et hp => ?_, fun s => ⟨_, rfl, abandoned_abandon .protocol s⟩, decodeDsp_unreach⟩
  have hcode : s.phase.named = false := by rcases hp with hp | hp <;> rw [hp] <;> rfl
  exact ⟨_, exec_edge_of_not_named level et hcode, abandoned_abandon _ _⟩

/-! ### The dispatch word of an EDGE -/

/-- `DSP[2:0]` is the phase code. -/
theorem dspWord_extractLsb'_code (w : Wires) (p : Phase) : (dspWord w p).extractLsb' 0 3 = p.code := by
  have hbits : ∀ (inv long level : Bool) (code : BitVec 3),
      BitVec.extractLsb' 0 3 (BitVec.ofBool inv ++ BitVec.ofBool long ++ BitVec.ofBool level ++ code : DspWord) =
        code := by decide
  exact hbits w.inv w.long w.level p.code

/-- `DSP[3:0]` is the level and the phase code. -/
theorem dspWord_extractLsb'_level_code (w : Wires) (p : Phase) :
    (dspWord w p).extractLsb' 0 4 = BitVec.ofBool w.level ++ p.code := by
  have hbits : ∀ (inv long level : Bool) (code : BitVec 3),
      BitVec.extractLsb' 0 4 (BitVec.ofBool inv ++ BitVec.ofBool long ++ BitVec.ofBool level ++ code : DspWord) =
        BitVec.ofBool level ++ code := by decide
  exact hbits w.inv w.long w.level p.code

/-- `DSP[5]` is `inv`. -/
theorem dspWord_getLsbD_5 (w : Wires) (p : Phase) : (dspWord w p).getLsbD 5 = w.inv := by
  rw [dspWord_getLsbD]
  simp

/-- `DSP[2]` and `DSP[1]` are bits of the phase code. -/
theorem dspWord_getLsbD_code (w : Wires) (p : Phase) {j : Nat} (hj : j < 3) :
    (dspWord w p).getLsbD j = p.code.getLsbD j := by
  rw [dspWord_getLsbD, if_pos hj]

/-- The wires of a time and a level by the ranges of 40_timing_classifier.md R80. -/
theorem wiresOf_classify (level : Level) (et : Elapsed) :
    wiresOf (classify et) level = ⟨decide (IsInvalid et), decide (IsLong et), level.bit⟩ := by
  simp only [wiresOf, classify_eq_invalid_iff, classify_eq_long_iff]

/-- The case of the word formed from a time, a level and a phase gives what the procedure gives in that phase: each way
through the procedure has its rows. -/
theorem exists_case_of_edgeProcedure (level : Level) (et : Elapsed) (s : State) :
    ∃ i, decodeDsp (dspWord (wiresOf (classify et) level) s.phase) = .ok i ∧
      exec i s = .next (edgeProcedure level et s) := by
  rcases edgeProcedure_cases level et s with ⟨hp, h⟩ | ⟨hp, hcode, h⟩ | ⟨hp, hnamed, hc, h⟩ | ⟨hp, hc, hl, h⟩ |
    ⟨hp, hc, hl, h⟩ | ⟨ev, hp, hev, hT, h⟩ | ⟨ev, nxt, hp, hev, hT, h⟩ <;> rw [h]
  · refine ⟨.edgeInert, decodeDsp_inert _ ?_, rfl⟩
    rw [dspWord_extractLsb'_code, hp]
    rfl
  · refine ⟨.edgeUnreach, decodeDsp_unreach _ ?_ ?_, rfl⟩ <;> rw [dspWord_getLsbD_code _ _ (by decide)] <;>
      cases hph : s.phase <;> simp [hph, Phase.named] at hcode <;> rfl
  · have hinv : (dspWord (wiresOf (classify et) level) s.phase).getLsbD 5 = true := by
      rw [dspWord_getLsbD_5, hc]
      rfl
    by_cases hinit : s.phase = .initial
    · refine ⟨.edgeTimingInitial, decodeDsp_timingInitial _ hinv ?_, rfl⟩
      rw [dspWord_extractLsb'_code, hinit]
      rfl
    · refine ⟨.edgeTimingWorking, decodeDsp_timingWorking _ hinv ?_, rfl⟩
      rw [dspWord_getLsbD_code _ _ (by decide)]
      cases hph : s.phase <;> simp [hph, Phase.named] at hp hnamed hinit <;> rfl
  · refine ⟨.edgeFirstH, decodeDsp_firstH _ ?_ ?_, rfl⟩
    · rw [dspWord_getLsbD_5]
      exact decide_eq_false hc
    · rw [dspWord_extractLsb'_level_code, hp, hl]
      exact (by decide : BitVec.ofBool true ++ 4#3 = 0b1100#4)
  · refine ⟨.edgeFirstL, decodeDsp_firstL _ ?_ ?_, rfl⟩
    · rw [dspWord_getLsbD_5]
      exact decide_eq_false hc
    · rw [dspWord_extractLsb'_level_code, hp, hl]
      exact (by decide : BitVec.ofBool false ++ 4#3 = 0b0100#4)
  · exact ⟨_, decodeDsp_tableCase hp hev, exec_tableCase_of_none hp hT s⟩
  · exact ⟨_, decodeDsp_tableCase hp hev, exec_tableCase_of_some hT s⟩

/-- Settles O44: the case of the word formed, on the state whose wires show the operands. -/
theorem edgeIsTheCaseItsDispatchWordNames : Obligations.EdgeIsTheCaseItsDispatchWordNames := by
  unfold Obligations.EdgeIsTheCaseItsDispatchWordNames
  intro s level et
  obtain ⟨i, hdecode, hexec⟩ := exists_case_of_edgeProcedure level et (s.drive (wiresOf (classify et) level))
  rw [← exec_edge level et s, wiresOf_classify] at hexec
  rw [wiresOf_classify] at hdecode
  exact ⟨i, hdecode, hexec.symm⟩

end Sys2Proof
end

section
/-! PROOFS. `EDGE` as a whole (60_exceptions.md R175): an abandonment, a first edge or a transition of the table, each
with its whole effect; and what follows for `READY`, `tmr_restart`, a repeated level and the requests DONE ignores. -/

namespace Sys2Proof

open Machine

/-! ### The three effects of an EDGE outside DONE -/

/-- A first edge with a valid time (41_edge_operation.md R103, R104). -/
def FirstEdgeEffect (level : Level) (s t : State) : Prop :=
  t.cnt = 13 ∧
    if level = .high then
      Entered .midOne s t ∧ ∀ j, j < 14 → t.cw.getLsbD j = (s.cw.getLsbD j || decide (j = 13))
    else Entered .midZero s t ∧ t.cw = s.cw

/-- What an `EDGE` outside DONE can do: each way through the procedure has one of three effects. -/
theorem exec_edge_effect {level : Level} {et : Elapsed} {s t : State} (h : exec (.edge level et) s = .next t)
    (hp : s.phase ≠ .done) :
    ((Malformed s level et ∨ s.phase.named = false) ∧ Abandoned s t) ∨
    (s.phase = .initial ∧ ¬IsInvalid et ∧ FirstEdgeEffect level s t) ∨
    (s.phase.working = true ∧ ∃ ev nxt, event level (classify et) = some ev ∧ transition s.phase ev = some nxt ∧
      CommitEffect nxt s t ∧ FinishEffect nxt s t) := by
  rw [exec_edge] at h
  injection h with h
  subst h
  rcases edgeProcedure_cases level et (s.drive (wiresOf (classify et) level)) with ⟨hd, -⟩ | ⟨-, hcode, h⟩ |
    ⟨-, -, hc, h⟩ | ⟨hi, hc, hl, h⟩ | ⟨hi, hc, hl, h⟩ | ⟨ev, hw, hev, hT, h⟩ | ⟨ev, nxt, hw, hev, hT, h⟩
  · exact absurd hd hp
  · exact .inl ⟨.inr hcode, h ▸ abandoned_abandon _ _⟩
  · exact .inl ⟨.inl (.inl ⟨hp, (classify_eq_invalid_iff et).mp hc⟩), h ▸ abandoned_abandon _ _⟩
  · subst hl
    obtain ⟨hentered, hcnt, hcw⟩ := firstOne_enter_effect (s.drive (wiresOf (classify et) .high))
    rw [h, ← classify_eq_invalid_iff, FirstEdgeEffect, if_pos rfl]
    exact .inr (.inl ⟨hi, hc, hcnt, hentered, hcw⟩)
  · subst hl
    obtain ⟨hentered, hcnt, hcw⟩ := firstZero_enter_effect (s.drive (wiresOf (classify et) .low))
    rw [h, ← classify_eq_invalid_iff, FirstEdgeEffect, if_neg (by decide)]
    exact .inr (.inl ⟨hi, hc, hcnt, hentered, hcw⟩)
  · exact .inl ⟨.inl (.inr (.inl ⟨hw, ev, hev, hT⟩)), h ▸ abandoned_abandon _ _⟩
  · rw [h]
    by_cases hov : nxt.mid = true ∧ s.cnt = 0
    · obtain ⟨hmid, h0⟩ := hov
      have hadv := advance_of_overrun (s := s.drive (wiresOf (classify et) level)) hmid h0
      exact .inl ⟨.inl (.inr (.inr ⟨ev, nxt, hev, hT, hmid, h0⟩)), hadv ▸ abandoned_abandon _ _⟩
    · exact .inr (.inr ⟨hw, ev, nxt, hev, hT, commitEffect_advance hov, finishEffect_advance hov⟩)

/-- Settles O47: the three effects of the procedure. -/
theorem abandonmentIsAllOrNothing : Obligations.AbandonmentIsAllOrNothing := by
  unfold Obligations.AbandonmentIsAllOrNothing
  exact fun s level et t h hp => exec_edge_effect h hp

/-- In DONE the registers are kept and no timer restart is asked for. -/
theorem exec_edge_of_done {level : Level} {et : Elapsed} {s t : State} (h : exec (.edge level et) s = .next t)
    (hp : s.phase = .done) : regsOf t = regsOf s ∧ t.tmrRestart = false := by
  obtain ⟨hword, htmr⟩ := exec_holdsWord_of_done hp (.inr (.inr ⟨level, et, rfl⟩)) h
  exact ⟨hword.regs, htmr⟩

/-- A first edge enters the mid-phase of its level. -/
theorem FirstEdgeEffect.entered {level : Level} {s t : State} (h : FirstEdgeEffect level s t) :
    Entered (if level = .high then .midOne else .midZero) s t := by
  obtain ⟨-, h⟩ := h
  split_ifs at h ⊢
  · exact h.1
  · exact h.1

/-- A legal transition completes the frame or enters the table's next phase. -/
theorem FinishEffect.completed_or_entered {nxt : Phase} {s t : State} (h : FinishEffect nxt s t) :
    Completed s t ∨ Entered nxt s t := by
  unfold FinishEffect at h
  split_ifs at h
  · exact .inl h
  · exact .inr h

/-! ### Completion -/

/-- R113's condition before the commit: the counter is 0 already, or the commit makes it 0. -/
theorem finish_condition_iff {nxt : Phase} {s t : State} (h : CommitEffect nxt s t) :
    (t.cnt = 0 ∧ (nxt = .startOne ∨ nxt = .midZero)) ↔
      (nxt = .startOne ∧ s.cnt = 0) ∨ (nxt = .midZero ∧ s.cnt.val = 1) := by
  cases nxt
  case startOne =>
    obtain ⟨hcnt, -⟩ : NoCommit s t := h
    simp [hcnt]
  case midZero =>
    obtain ⟨hcnt, -⟩ : CommittedZero s t := h
    simp only [Fin.ext_iff, Fin.val_zero, ← hcnt]
    simp
  all_goals simp

/-- R113: the table's next phase completes the frame. -/
def CompletionDue (s : State) (level : Level) (et : Elapsed) : Prop :=
  ∃ ev nxt, event level (classify et) = some ev ∧ transition s.phase ev = some nxt ∧
    ((nxt = .startOne ∧ s.cnt = 0) ∨ (nxt = .midZero ∧ s.cnt.val = 1))

theorem completionDue_iff_of_transition {level : Level} {et : Elapsed} {s t : State} {ev : EventCode} {nxt : Phase}
    (hev : event level (classify et) = some ev) (hT : transition s.phase ev = some nxt) (h : CommitEffect nxt s t) :
    CompletionDue s level et ↔ t.cnt = 0 ∧ (nxt = .startOne ∨ nxt = .midZero) := by
  rw [finish_condition_iff h]
  constructor
  · rintro ⟨ev', nxt', hev', hT', hdue⟩
    obtain rfl := Option.some.inj (hev'.symm.trans hev)
    obtain rfl := Option.some.inj (hT'.symm.trans hT)
    exact hdue
  · exact fun hdue => ⟨ev, nxt, hev, hT, hdue⟩

/-- A malformed input completes nothing: it has no event, no legal entry, or a counter that is 0 at a mid-phase. -/
theorem not_completionDue_of_malformed {level : Level} {et : Elapsed} {s : State} (h : Malformed s level et) :
    ¬CompletionDue s level et := by
  rintro ⟨ev, nxt, hev, hT, hdue⟩
  rcases h with ⟨-, het⟩ | ⟨-, ev', hev', hT'⟩ | ⟨ev', nxt', hev', hT', hmid, h0⟩
  · rw [classify_of_invalid het, event_invalid] at hev
    cases hev
  · obtain rfl := Option.some.inj (hev'.symm.trans hev)
    rw [hT'] at hT
    cases hT
  · obtain rfl := Option.some.inj (hev'.symm.trans hev)
    obtain rfl := Option.some.inj (hT'.symm.trans hT)
    rcases hdue with ⟨rfl, -⟩ | ⟨-, h1⟩
    · cases hmid
    · simp [h0] at h1

/-- Only a working phase has a row in the table. -/
theorem CompletionDue.working {level : Level} {et : Elapsed} {s : State} (h : CompletionDue s level et) :
    s.phase.working = true := by
  obtain ⟨_, _, -, hT, -⟩ := h
  exact (transition_working hT).1

/-- An `EDGE` outside DONE with `READY` = 0 either completes the frame, exactly when it is due, or leaves `READY` at 0
and a phase other than DONE. -/
theorem exec_edge_completed_or_not {level : Level} {et : Elapsed} {s t : State}
    (h : exec (.edge level et) s = .next t) (hr : s.ready = false) (hp : s.phase ≠ .done) :
    (CompletionDue s level et ∧ t.cnt = 0 ∧ Completed s t) ∨
    (¬CompletionDue s level et ∧ t.ready = false ∧ t.phase ≠ .done) := by
  rcases exec_edge_effect h hp with ⟨hwhy, hab⟩ | ⟨hi, -, hfirst⟩ | ⟨-, ev, nxt, hev, hT, hcommit, hfin⟩
  · have hnot : ¬CompletionDue s level et := by
      rcases hwhy with hmal | hcode
      · exact not_completionDue_of_malformed hmal
      · intro hdue
        rw [(named_and_ne_initial_of_working hdue.working).1] at hcode
        cases hcode
    obtain ⟨-, -, hphase, hready, -⟩ := hab
    exact .inr ⟨hnot, hready, by simp [hphase]⟩
  · have hnot : ¬CompletionDue s level et := fun hdue => by simpa [hi, Phase.working] using hdue.working
    obtain ⟨hphase, hready, -⟩ := hfirst.entered
    refine .inr ⟨hnot, hready.trans hr, ?_⟩
    rw [hphase]
    split_ifs <;> simp
  · rw [completionDue_iff_of_transition hev hT hcommit]
    unfold FinishEffect at hfin
    split_ifs at hfin with hdue
    · exact .inl ⟨hdue, hdue.1, hfin⟩
    · obtain ⟨hphase, hready, -⟩ := hfin
      exact .inr ⟨hdue, hready.trans hr, hphase ▸ ne_done_of_working (transition_working hT).2⟩

/-- Settles O45: `READY` rises exactly where the frame completes. -/
theorem readyRisesOnlyAtCompletion : Obligations.ReadyRisesOnlyAtCompletion := by
  unfold Obligations.ReadyRisesOnlyAtCompletion
  intro s level et t h hr hp
  rcases exec_edge_completed_or_not h hr hp with ⟨hdue, h0, hphase, hready, htmr, hedge, -⟩ | ⟨hnot, hready, hphase⟩
  · exact ⟨by simp [hready, hphase], iff_of_true hready hdue, fun _ => ⟨h0, htmr, hedge⟩⟩
  · exact ⟨by simp [hready, hphase], iff_of_false (by simp [hready]) hnot, by simp [hready]⟩

/-! ### The timer restart -/

/-- A phase entered by an accepted edge is neither INITIAL nor DONE. -/
theorem tmrRestart_iff_of_entered {p : Phase} {s t : State} (hw : p.working = true) (h : Entered p s t) :
    t.tmrRestart = true ↔ t.phase ≠ .initial ∧ t.phase ≠ .done := by
  obtain ⟨hphase, -, htmr, -⟩ := h
  simp [htmr, hphase, (named_and_ne_initial_of_working hw).2, ne_done_of_working hw]

/-- Settles O46: no restart in DONE, on an abandonment and on completion; a restart on every entry of a phase. -/
theorem timerRestartExactlyOnAcceptedEdges : Obligations.TimerRestartExactlyOnAcceptedEdges := by
  unfold Obligations.TimerRestartExactlyOnAcceptedEdges
  refine ⟨fun s level et t h => ?edge, fun s i t hi h => ?other⟩
  case edge =>
    by_cases hp : s.phase = .done
    · simp [hp, (exec_edge_of_done h hp).2]
    · simp only [ne_eq, hp, not_false_eq_true, true_and]
      rcases exec_edge_effect h hp with ⟨-, -, -, hphase, -, htmr, -⟩ | ⟨-, -, hfirst⟩ | ⟨-, _, _, -, hT, -, hfin⟩
      · simp [hphase, htmr]
      · exact tmrRestart_iff_of_entered (by split_ifs <;> rfl) hfirst.entered
      · rcases hfin.completed_or_entered with ⟨hphase, -, htmr, -⟩ | hentered
        · simp [hphase, htmr]
        · exact tmrRestart_iff_of_entered (transition_working hT).2 hentered
  case other => rcases hi with rfl | rfl | rfl <;> injection h with h <;> subst h <;> rfl

/-! ### A repeated level (70_reset_and_hazards.md R191) -/

/-- The level of the line in a working phase: that of the edge which entered it. -/
def lineLevel : Phase → Option Level
  | .midOne | .startZero => some .high
  | .midZero | .startOne => some .low
  | .initial | .done | .code6 | .code7 => none

/-- The table enters a phase by edges of its own level only. -/
theorem lineLevel_of_transition {p nxt : Phase} {level : Level} {cls : TimingClass} {ev : EventCode}
    (hev : event level cls = some ev) (hT : transition p ev = some nxt) : lineLevel nxt = some level := by
  cases cls <;> cases level <;> cases hev <;> cases p <;> cases hT <;> rfl

/-- So it has no entry for an edge to the level the line is at: the phases of the line's two levels alternate. -/
theorem transition_eq_none_of_lineLevel {p : Phase} {level : Level} {cls : TimingClass} {ev : EventCode}
    (hp : lineLevel p = some level) (hev : event level cls = some ev) : transition p ev = none := by
  cases cls <;> cases level <;> cases hev <;> cases p <;> cases hp <;> rfl

/-- An `EDGE` that leaves a working phase leaves one of its own level. -/
theorem lineLevel_of_exec_edge {level : Level} {et : Elapsed} {s t : State} (h : exec (.edge level et) s = .next t)
    (hw : t.phase.working = true) : lineLevel t.phase = some level := by
  by_cases hp : s.phase = .done
  · have hphase : t.phase = s.phase := congrArg Regs.phase (exec_edge_of_done h hp).1
    exact absurd (hphase.trans hp) (ne_done_of_working hw)
  · rcases exec_edge_effect h hp with ⟨-, -, -, hphase, -⟩ | ⟨-, -, hfirst⟩ | ⟨-, _, _, hev, hT, -, hfin⟩
    · simp [hphase, Phase.working] at hw
    · obtain ⟨hphase, -⟩ := hfirst.entered
      cases level <;> rw [hphase] <;> rfl
    · rcases hfin.completed_or_entered with ⟨hphase, -⟩ | ⟨hphase, -⟩
      · exact absurd hphase (ne_done_of_working hw)
      · rw [hphase]
        exact lineLevel_of_transition hev hT

/-- Settles O49: the second edge has an INVALID time, or an event the table has no entry for. -/
theorem repeatedLevelAbandons : Obligations.RepeatedLevelAbandons := by
  unfold Obligations.RepeatedLevelAbandons
  intro s level et et' t h hw
  have hlevel := lineLevel_of_exec_edge h hw
  refine exec_edge_abandoned_of_malformed ?_
  by_cases het : IsInvalid et'
  · exact .inl ⟨ne_done_of_working hw, het⟩
  · rw [← classify_eq_invalid_iff] at het
    obtain ⟨ev, hev⟩ := event_eq_some_of_valid (level := level) het
    exact .inr (.inl ⟨hw, ev, hev, transition_eq_none_of_lineLevel hlevel hev⟩)

/-! ### What DONE ignores (70_reset_and_hazards.md R197) -/

/-- Outside DONE some edge changes the phase: a first edge in INITIAL, an INVALID time elsewhere. -/
theorem exists_edge_changing_phase {s : State} (hp : s.phase ≠ .done) :
    ∃ level et t, exec (.edge level et) s = .next t ∧ t.phase ≠ s.phase := by
  by_cases hi : s.phase = .initial
  · obtain ⟨et, het⟩ : ∃ et : Elapsed, IsShort et := ⟨444, by decide⟩
    exact ⟨.high, et, _, exec_edge_high_of_initial hi (.inl het), by simp [hi]⟩
  · obtain ⟨t, ht, -, -, hphase, -⟩ :=
      exec_edge_abandoned_of_invalid .low hp (classify_of_invalid (et := 0) (by decide))
    exact ⟨.low, 0, t, ht, fun hsame => hi (hsame.symm.trans hphase)⟩

/-- A step that leaves DONE ran `RESET`. -/
theorem fetch_fst_of_leaves_done {s t : State} (hp : s.phase = .done) (h : step s = .next t) (ht : t.phase ≠ .done) :
    (fetch s).1 = .reset := by
  rcases fetch_fst_cases s with hreset | hother
  · exact hreset
  · have hfetch := fetch_snd_holdsWord s
    obtain ⟨hword, -⟩ := exec_holdsWord_of_done (hfetch.phase.trans hp) hother h
    exact absurd (hword.phase.trans (hfetch.phase.trans hp)) ht

/-- Settles O16: DONE ignores the three other operations; elsewhere some edge changes the phase. A step that leaves DONE
ran `RESET`, which only a word that selects it brings. -/
theorem onlyDoneIgnoresEveryRequestButReset : Obligations.OnlyDoneIgnoresEveryRequestButReset := by
  unfold Obligations.OnlyDoneIgnoresEveryRequestButReset
  refine ⟨fun s => ⟨fun hkeeps => ?_, fun hp i t hi h => ?_⟩, fun s t w sample rest hin hp h ht => ?_⟩
  · by_contra hp
    obtain ⟨level, et, t, ht, hphase⟩ := exists_edge_changing_phase hp
    have hregs := hkeeps _ t (.inr (.inr ⟨level, et, rfl⟩)) ht
    exact hphase (congrArg Regs.phase hregs)
  · exact (exec_holdsWord_of_done hp hi h).1.regs
  · by_contra hw
    have hfetch := fetch_fst_of_leaves_done hp h ht
    rw [fetch_cons hin] at hfetch
    exact cycleInstr_ne_reset (c := ⟨w, sample⟩) hw hfetch

end Sys2Proof
end

section
/-! PROOFS. The reachable combinations of the registers (10_state.md R24 to R28): the reset values, a completed frame, or
a session with the bits assembled so far; every step keeps them. -/

namespace Sys2Proof

open Machine

/-! ### The three kinds of consistent states -/

/-- The value of the bit assembled last, which the working phase remembers. -/
def lastBit : Phase → Bool
  | .midOne | .startOne => true
  | .midZero | .startZero | .initial | .done | .code6 | .code7 => false

/-- A session under way: `CNT` is the position of the bit assembled last, and only MID_ONE may hold the last bit of the
frame (10_state.md R28). -/
structure InSession (s : State) : Prop where
  working : s.phase.working = true
  notReady : s.ready = false
  cnt_le : s.cnt.val ≤ 13
  cnt_pos : s.phase ≠ .midOne → 1 ≤ s.cnt.val
  below : ∀ j, j < s.cnt.val → s.cw.getLsbD j = false
  last : s.cw.getLsbD s.cnt.val = lastBit s.phase

/-- A completed frame (10_state.md R26, R28). -/
structure FrameDone (s : State) : Prop where
  phase : s.phase = .done
  ready : s.ready = true
  cnt : s.cnt = 0

theorem regsOf_eq_resetRegs_iff {s : State} :
    regsOf s = resetRegs ↔ s.cw = 0 ∧ s.cnt = 14 ∧ s.phase = .initial ∧ s.ready = false := by
  rw [regsOf, resetRegs, Regs.mk.injEq]

theorem consistent_of_resetRegs {s : State} (h : regsOf s = resetRegs) : Consistent s := by
  obtain ⟨hcw, hcnt, hphase, hready⟩ := regsOf_eq_resetRegs_iff.mp h
  simp [Consistent, hcw, hcnt, hphase, hready, Phase.named]

theorem FrameDone.consistent {s : State} (h : FrameDone s) : Consistent s := by
  obtain ⟨hphase, hready, hcnt⟩ := h
  simp [Consistent, hcnt, hphase, hready, Phase.named]

theorem InSession.consistent {s : State} (h : InSession s) : Consistent s := by
  obtain ⟨hworking, hready, hle, hpos, hbelow, hlast⟩ := h
  refine ⟨?_, hbelow, ?_⟩
  · simp [hready, ne_done_of_working hworking]
  · cases hphase : s.phase
    case initial | done | code6 | code7 =>
      rw [hphase] at hworking
      cases hworking
    all_goals
      rw [hphase] at hlast hpos
      simp_all [lastBit, Phase.named]

theorem Consistent.inSession {s : State} (h : Consistent s) (hw : s.phase.working = true) : InSession s := by
  obtain ⟨hready, hbelow, -, -, hmidOne, hstartOne, hzero, -⟩ := h
  have hnot : s.ready = false := Bool.eq_false_iff.mpr (mt hready.mp (ne_done_of_working hw))
  cases hphase : s.phase
  case midOne =>
    obtain ⟨hle, hlast⟩ := hmidOne hphase
    exact ⟨hw, hnot, hle, fun hne => absurd hphase hne, hbelow, by rw [hlast, hphase]; rfl⟩
  case startOne =>
    obtain ⟨hpos, hle, hlast⟩ := hstartOne hphase
    exact ⟨hw, hnot, hle, fun _ => hpos, hbelow, by rw [hlast, hphase]; rfl⟩
  case midZero =>
    obtain ⟨hpos, hle, hlast⟩ := hzero (.inl hphase)
    exact ⟨hw, hnot, hle, fun _ => hpos, hbelow, by rw [hlast, hphase]; rfl⟩
  case startZero =>
    obtain ⟨hpos, hle, hlast⟩ := hzero (.inr hphase)
    exact ⟨hw, hnot, hle, fun _ => hpos, hbelow, by rw [hlast, hphase]; rfl⟩
  all_goals
    rw [hphase] at hw
    cases hw

/-- The reachable combinations are of three kinds. -/
theorem consistent_iff {s : State} : Consistent s ↔ regsOf s = resetRegs ∨ FrameDone s ∨ InSession s := by
  refine ⟨fun h => ?_, ?_⟩
  · by_cases hw : s.phase.working = true
    · exact .inr (.inr (h.inSession hw))
    · obtain ⟨hready, -, hinit, hdone, -, -, -, hnamed⟩ := h
      cases hphase : s.phase
      case initial =>
        obtain ⟨hcnt, hcw⟩ := hinit hphase
        exact .inl (regsOf_eq_resetRegs_iff.mpr ⟨hcw, hcnt, hphase, by simpa [hphase] using hready⟩)
      case done => exact .inr (.inl ⟨hphase, hready.mpr hphase, hdone hphase⟩)
      all_goals simp [hphase, Phase.working, Phase.named] at hw hnamed
  · rintro (h | h | h)
    · exact consistent_of_resetRegs h
    · exact h.consistent
    · exact h.consistent

/-- The invariant reads the registers only. -/
theorem consistent_congr {s t : State} (h : regsOf t = regsOf s) : Consistent t ↔ Consistent s := by
  obtain ⟨hcw, hcnt, hphase, hready⟩ := Regs.mk.inj h
  simp only [Consistent, hcw, hcnt, hphase, hready]

/-- Settles O52: the reset state is of the first kind. -/
theorem resetStateIsConsistent : Obligations.ResetStateIsConsistent := by
  unfold Obligations.ResetStateIsConsistent
  exact ⟨consistent_of_resetRegs rfl, rfl, by decide⟩

/-! ### An EDGE keeps them -/

/-- A session begins with the bit of its first edge. -/
theorem inSession_of_firstEdge {level : Level} {s t : State} (hs : regsOf s = resetRegs)
    (h : FirstEdgeEffect level s t) : InSession t := by
  obtain ⟨hcw, -, -, hready⟩ := regsOf_eq_resetRegs_iff.mp hs
  obtain ⟨hcnt, heffect⟩ := h
  cases level
  case high =>
    obtain ⟨⟨hphase, hready', -⟩, hbits⟩ := heffect
    refine ⟨by rw [hphase]; rfl, hready'.trans hready, by simp [hcnt], by simp [hphase], fun j hj => ?_, ?_⟩
    · have hlt : j < 13 := by simpa [hcnt] using hj
      rw [hbits j (by omega), hcw]
      simp [hlt.ne]
    · rw [hcnt, hphase]
      exact (hbits 13 (by decide)).trans (by simp [lastBit])
  case low =>
    obtain ⟨⟨hphase, hready', -⟩, hcw'⟩ := heffect
    refine ⟨by rw [hphase]; rfl, hready'.trans hready, by simp [hcnt], fun _ => by simp [hcnt], fun j hj => ?_, ?_⟩
    · simp [hcw', hcw]
    · simp [hcw', hcw, hphase, lastBit]

/-- A start-phase is entered by confirming the bit of the mid-phase before it (41_edge_operation.md R106, R108). -/
theorem lastBit_of_confirm {p nxt : Phase} {ev : EventCode} (hT : transition p ev = some nxt)
    (hmid : nxt.mid = false) : lastBit p = lastBit nxt := by
  cases p <;> cases ev <;> cases hT <;> cases hmid <;> rfl

/-- Entering the table's next phase goes on with the session: the bit committed is at the new `CNT`, where `CW` had a
0, and a phase other than MID_ONE is not entered with the frame's last bit. -/
theorem inSession_of_entered {s t : State} {nxt : Phase} {ev : EventCode} (hs : InSession s)
    (hT : transition s.phase ev = some nxt) (hcommit : CommitEffect nxt s t) (hentered : Entered nxt s t)
    (hnot : ¬(t.cnt = 0 ∧ (nxt = .startOne ∨ nxt = .midZero))) : InSession t := by
  obtain ⟨-, hready, hle, hpos, hbelow, hlast⟩ := hs
  obtain ⟨hphase, hready', -⟩ := hentered
  have hwork : t.phase.working = true := hphase ▸ (transition_working hT).2
  have hne (hn : nxt = .startOne ∨ nxt = .midZero) : 1 ≤ t.cnt.val :=
    Nat.one_le_iff_ne_zero.mpr fun h0 => hnot ⟨Fin.ext h0, hn⟩
  cases nxt
  case midOne =>
    obtain ⟨hdown, hbits⟩ : CommittedOne s t := hcommit
    refine ⟨hwork, hready'.trans hready, by omega, fun h => absurd hphase h, fun j hj => ?_, ?_⟩
    · rw [hbits j (by omega), hbelow j (by omega)]
      simp [hj.ne]
    · rw [hbits _ (by omega), hphase]
      simp [lastBit]
  case midZero =>
    obtain ⟨hdown, hcw⟩ : CommittedZero s t := hcommit
    refine ⟨hwork, hready'.trans hready, by omega, fun _ => hne (.inr rfl), fun j hj => ?_, ?_⟩
    · rw [hcw, hbelow j (by omega)]
    · rw [hcw, hbelow _ (by omega), hphase]
      rfl
  case startOne =>
    obtain ⟨hcnt, hcw⟩ : NoCommit s t := hcommit
    refine ⟨hwork, hready'.trans hready, hcnt ▸ hle, fun _ => hne (.inl rfl), hcnt ▸ hcw ▸ hbelow, ?_⟩
    rw [hcw, hcnt, hlast, hphase, lastBit_of_confirm hT rfl]
  case startZero =>
    obtain ⟨hcnt, hcw⟩ : NoCommit s t := hcommit
    have hlast' : lastBit s.phase = false := lastBit_of_confirm hT rfl
    have hmid : s.phase ≠ .midOne := fun h => by simp [h, lastBit] at hlast'
    refine ⟨hwork, hready'.trans hready, hcnt ▸ hle, fun _ => hcnt ▸ hpos hmid, hcnt ▸ hcw ▸ hbelow, ?_⟩
    rw [hcw, hcnt, hlast, hphase, hlast']
    rfl
  all_goals cases (transition_working hT).2

/-- A consistent state in INITIAL holds the reset values. -/
theorem Consistent.regsOf_of_initial {s : State} (h : Consistent s) (hp : s.phase = .initial) :
    regsOf s = resetRegs := by
  rcases consistent_iff.mp h with hreset | hdone | hsession
  · exact hreset
  · simp [hdone.phase] at hp
  · exact absurd hp (named_and_ne_initial_of_working hsession.working).2

theorem consistent_of_exec_edge {level : Level} {et : Elapsed} {s t : State} (hs : Consistent s)
    (h : exec (.edge level et) s = .next t) : Consistent t := by
  by_cases hp : s.phase = .done
  · exact (consistent_congr (exec_edge_of_done h hp).1).mpr hs
  · rcases exec_edge_effect h hp with ⟨-, hcw, hcnt, hphase, hready, -⟩ | ⟨hi, -, hfirst⟩ |
      ⟨hw, ev, nxt, -, hT, hcommit, hfin⟩
    · exact consistent_of_resetRegs (regsOf_eq_resetRegs_iff.mpr ⟨hcw, hcnt, hphase, hready⟩)
    · exact (inSession_of_firstEdge (hs.regsOf_of_initial hi) hfirst).consistent
    · unfold FinishEffect at hfin
      split_ifs at hfin with hlast
      · obtain ⟨hphase, hready, -⟩ := hfin
        exact FrameDone.consistent ⟨hphase, hready, hlast.1⟩
      · exact (inSession_of_entered (hs.inSession hw) hT hcommit hfin hlast).consistent

/-- Settles O50: a fetch and the operations other than `EDGE` keep the registers or reset them. -/
theorem everyStepKeepsTheRegistersConsistent : Obligations.EveryStepKeepsTheRegistersConsistent := by
  unfold Obligations.EveryStepKeepsTheRegistersConsistent
  intro s t hs h
  obtain ⟨s0, hregs, -, hop⟩ := step_cases s
  have hs0 : Consistent s0 := (consistent_congr hregs).mpr hs
  rcases hop with hop | hop | hop | ⟨level, et, hop⟩ <;> rw [hop] at h
  · injection h with h
    exact h ▸ consistent_of_resetRegs rfl
  · injection h with h
    exact h ▸ (consistent_congr (regsOf_quiet s0)).mpr hs0
  · injection h with h
    exact h ▸ (consistent_congr (s := s0) rfl).mpr hs0
  · exact consistent_of_exec_edge hs0 h

/-! ### The bits assembled stay (10_state.md R27) -/

/-- From `s` to `t` the bits of `CW` at and above the old `CNT` are kept, and `CNT` has not gone up. -/
def KeepsAssembled (s t : State) : Prop :=
  (∀ j, s.cnt.val ≤ j → t.cw.getLsbD j = s.cw.getLsbD j) ∧ t.cnt ≤ s.cnt

theorem keepsAssembled_of_noCommit {s t : State} (h : NoCommit s t) : KeepsAssembled s t := by
  obtain ⟨hcnt, hcw⟩ := h
  exact ⟨fun j _ => by rw [hcw], hcnt.le⟩

theorem keepsAssembled_of_regsOf {s t : State} (h : regsOf t = regsOf s) : KeepsAssembled s t :=
  keepsAssembled_of_noCommit ⟨congrArg Regs.cnt h, congrArg Regs.cw h⟩

theorem keepsAssembled_of_committedZero {s t : State} (h : CommittedZero s t) : KeepsAssembled s t := by
  obtain ⟨hdown, hcw⟩ := h
  exact ⟨fun j _ => by rw [hcw], Fin.le_def.mpr (by omega)⟩

/-- The bit a commit sets is below the old `CNT`. -/
theorem keepsAssembled_of_committedOne {s t : State} (h : CommittedOne s t) : KeepsAssembled s t := by
  obtain ⟨hdown, hbits⟩ := h
  refine ⟨fun j hj => ?_, Fin.le_def.mpr (by omega)⟩
  by_cases hlt : j < 14
  · rw [hbits j hlt, decide_eq_false (by omega), Bool.or_false]
  · rw [BitVec.getLsbD_of_ge _ j (by omega), BitVec.getLsbD_of_ge _ j (by omega)]

theorem keepsAssembled_of_commitEffect {nxt : Phase} {s t : State} (h : CommitEffect nxt s t) : KeepsAssembled s t := by
  unfold CommitEffect at h
  split_ifs at h
  · exact keepsAssembled_of_committedOne h
  · exact keepsAssembled_of_committedZero h
  · exact keepsAssembled_of_noCommit h

/-- At the first edge no bit is assembled yet: `CNT` is above every position of `CW`. -/
theorem keepsAssembled_of_firstEdge {level : Level} {s t : State} (hs : regsOf s = resetRegs)
    (h : FirstEdgeEffect level s t) : KeepsAssembled s t := by
  have hcnt : s.cnt = 14 := congrArg Regs.cnt hs
  obtain ⟨hcnt', -⟩ := h
  refine ⟨fun j hj => ?_, by rw [hcnt, hcnt']; decide⟩
  have hge : 14 ≤ j := by simpa [hcnt] using hj
  rw [BitVec.getLsbD_of_ge _ j hge, BitVec.getLsbD_of_ge _ j hge]

theorem keepsAssembled_of_exec_edge {level : Level} {et : Elapsed} {s t : State} (hs : Consistent s)
    (h : exec (.edge level et) s = .next t) (ht : t.phase ≠ .initial) : KeepsAssembled s t := by
  by_cases hp : s.phase = .done
  · exact keepsAssembled_of_regsOf (exec_edge_of_done h hp).1
  · rcases exec_edge_effect h hp with ⟨-, -, -, hphase, -⟩ | ⟨hi, -, hfirst⟩ | ⟨-, _, _, -, -, hcommit, -⟩
    · exact absurd hphase ht
    · exact keepsAssembled_of_firstEdge (hs.regsOf_of_initial hi) hfirst
    · exact keepsAssembled_of_commitEffect hcommit

/-- Settles O54: only an `EDGE` writes bits in a session, and the bit it commits is a new one. -/
theorem assembledBitsNeverChange : Obligations.AssembledBitsNeverChange := by
  unfold Obligations.AssembledBitsNeverChange
  intro s t hs h ht
  obtain ⟨s0, hregs, -, hop⟩ := step_cases s
  obtain ⟨hcw, hcnt, -, -⟩ := Regs.mk.inj hregs
  have hs0 : Consistent s0 := (consistent_congr hregs).mpr hs
  rw [← hcw, ← hcnt]
  rcases hop with hop | hop | hop | ⟨level, et, hop⟩ <;> rw [hop] at h
  · injection h with h
    subst h
    exact absurd rfl ht
  · injection h with h
    exact h ▸ keepsAssembled_of_regsOf (regsOf_quiet s0)
  · injection h with h
    exact h ▸ keepsAssembled_of_regsOf rfl
  · exact keepsAssembled_of_exec_edge hs0 h ht

/-! ### The cause a trace names (60_exceptions.md R161, R162) -/

/-- The procedure's trace names the condition it met, in every named phase: no two of the three hold at once. -/
theorem cause_edgeProcedure {level : Level} {et : Elapsed} {s : State} (hnamed : s.phase.named = true) :
    ((edgeProcedure level et s).cause = .timing ↔ TimingViolation s et) ∧
    ((edgeProcedure level et s).cause = .overrun ↔ Overrun s level et) ∧
    ((edgeProcedure level et s).cause = .protocol ↔ ProtocolViolation s level et) := by
  simp only [TimingViolation, ← classify_eq_invalid_iff]
  rcases edgeProcedure_cases level et s with ⟨hp, h⟩ | ⟨-, hcode, -⟩ | ⟨hp, -, hc, h⟩ | ⟨hp, hc, -, h⟩ |
    ⟨hp, hc, -, h⟩ | ⟨ev, hw, hev, hT, h⟩ | ⟨ev, nxt, hw, hev, hT, h⟩
  · simp [h, hp, Overrun, ProtocolViolation, transition, Phase.working]
  · simp [hnamed] at hcode
  · simp [h, hp, hc, Overrun, ProtocolViolation]
  · simp [h, hp, hc, Overrun, ProtocolViolation, transition, Phase.working]
  · simp [h, hp, hc, Overrun, ProtocolViolation, transition, Phase.working]
  all_goals
    have hvalid : classify et ≠ .invalid := fun hc => by simp [hc] at hev
  · simp [h, hvalid, hw, hev, hT, Overrun, ProtocolViolation]
  · rcases s.advance_cases nxt with ⟨hmid, h0, hadv⟩ | ⟨hno, hadv⟩
    · simp [h, hadv, hvalid, hev, hT, hmid, h0, Overrun, ProtocolViolation]
    · have hcause : (edgeProcedure level et s).cause = .noAbandon := by
        rcases (s.commit nxt).finish_cases nxt with ⟨-, hfin⟩ | ⟨-, hfin⟩ <;> rw [h, hadv, hfin] <;> rfl
      have hoverrun : ¬Overrun s level et := by
        rintro ⟨ev', nxt', hev', hT', hmid, h0⟩
        obtain rfl := Option.some.inj (hev'.symm.trans hev)
        obtain rfl := Option.some.inj (hT'.symm.trans hT)
        exact hno ⟨hmid, h0⟩
      rw [iff_false_right hoverrun]
      simp [hcause, hvalid, hev, hT, ProtocolViolation]

/-- An overrun in a reachable state: MID_ONE is the only working phase with `CNT` = 0, and LONG to low its only event
that commits (60_exceptions.md R158). -/
theorem overrun_iff {s : State} (hs : Consistent s) (level : Level) (et : Elapsed) :
    Overrun s level et ↔ s.phase = .midOne ∧ s.cnt = 0 ∧ level = .low ∧ IsLong et := by
  rw [← classify_eq_long_iff]
  constructor
  · rintro ⟨ev, nxt, hev, hT, hmid, h0⟩
    have hp : s.phase = .midOne := by
      by_contra hne
      have hpos := (hs.inSession (transition_working hT).1).cnt_pos hne
      simp [h0] at hpos
    rw [hp] at hT
    obtain rfl : ev = .ll := by
      cases ev <;> cases hT
      · cases hmid
      · rfl
    have hoperands : level = .low ∧ classify et = .long := event_injective hev rfl
    exact ⟨hp, h0, hoperands⟩
  · rintro ⟨hp, h0, rfl, hc⟩
    exact ⟨.ll, .midZero, by rw [hc]; rfl, by rw [hp]; rfl, rfl, h0⟩

/-- Settles O55: the trace names the condition met, and in a consistent state the overrun is that of MID_ONE. -/
theorem traceNamesTheFirstCauseThatApplies : Obligations.TraceNamesTheFirstCauseThatApplies := by
  unfold Obligations.TraceNamesTheFirstCauseThatApplies
  intro s level et t hs h
  have hnamed : s.phase.named = true := by
    obtain ⟨-, -, -, -, -, -, -, hnamed⟩ := hs
    exact hnamed
  rw [exec_edge] at h
  injection h with h
  subst h
  rw [← overrun_iff hs]
  exact cause_edgeProcedure (s := s.drive (wiresOf (classify et) level)) hnamed

end Sys2Proof
end

section
/-! PROOFS. Frames (30_encoding.md R71, 41_edge_operation.md R122): the edges of a frame, bit by bit, and the registers
after each; every frame decodes, none is published early, and every consistent state lies on the way of a frame. -/

namespace Sys2Proof

open Machine

/-! ### Edges over the registers -/

/-- An edge brings the registers from `r` to `r'`, whatever the model's own fields hold. -/
def EdgeLeads (r : Regs) (e : Level × Elapsed) (r' : Regs) : Prop :=
  ∀ s : State, regsOf s = r → ∃ t, exec (.edge e.1 e.2) s = .next t ∧ regsOf t = r'

/-- The edges lead from `r` to `r'`, and no command is ready before any of them. -/
inductive EdgePath : Regs → List (Level × Elapsed) → Regs → Prop
  | nil (r : Regs) : EdgePath r [] r
  | cons {r r' r'' : Regs} {e : Level × Elapsed} {es : List (Level × Elapsed)} (hready : r.ready = false)
      (he : EdgeLeads r e r') (hes : EdgePath r' es r'') : EdgePath r (e :: es) r''

theorem EdgePath.append {r r' r'' : Regs} {es fs : List (Level × Elapsed)} (h : EdgePath r es r')
    (h' : EdgePath r' fs r'') : EdgePath r (es ++ fs) r'' := by
  induction h with
  | nil => exact h'
  | cons hready he _ ih => exact .cons hready he (ih h')

theorem EdgePath.single {r r' : Regs} {e : Level × Elapsed} (hready : r.ready = false) (he : EdgeLeads r e r') :
    EdgePath r [e] r' := .cons hready he (.nil r')

theorem edgeLeads_step {r r' : Regs} {e : Level × Elapsed} (h : EdgeLeads r e r') {s : State}
    {rest : List PortCycle} (hs : regsOf s = r) (hin : s.inputs = edgeCycle e :: rest) :
    ∃ t, step s = .next t ∧ regsOf t = r' ∧ t.inputs = rest := by
  obtain ⟨t, ht, hregs⟩ := h (s.withInputs rest) hs
  have hstep : step s = exec (.edge e.1 e.2) (s.withInputs rest) := by rw [step_request hin, decodeReq_edgeWord]
  exact ⟨t, hstep.trans ht, hregs, exec_inputs ht⟩

/-- A run over the cycles of the edges ends in the registers they lead to. -/
theorem EdgePath.run {r r' : Regs} {es : List (Level × Elapsed)} (h : EdgePath r es r') (rest : List PortCycle) :
    ∀ {s : State}, regsOf s = r → s.inputs = es.map edgeCycle ++ rest →
      ∃ t, runSteps es.length s = .next t ∧ regsOf t = r' ∧ t.inputs = rest := by
  induction h with
  | nil r => exact fun {s} hs hin => ⟨s, runSteps_zero s, hs, hin⟩
  | cons _ he _ ih =>
    intro s hs hin
    obtain ⟨u, hu, hregs, hrest⟩ := edgeLeads_step he hs hin
    obtain ⟨t, ht, hend⟩ := ih hregs hrest
    exact ⟨t, (runSteps_succ _ hu).trans ht, hend⟩

/-- Before the last edge `READY` is 0. -/
theorem EdgePath.not_ready_of_lt {r r' : Regs} {es : List (Level × Elapsed)} (h : EdgePath r es r')
    (rest : List PortCycle) :
    ∀ {k : Nat} {s t : State}, regsOf s = r → s.inputs = es.map edgeCycle ++ rest → k < es.length →
      runSteps k s = .next t → t.ready = false := by
  induction h with
  | nil => exact fun _ _ hk => absurd hk (Nat.not_lt_zero _)
  | cons hready he _ ih =>
    intro k s t hs hin hk ht
    cases k with
    | zero =>
      rw [runSteps_zero] at ht
      injection ht with ht
      exact ht ▸ (congrArg Regs.ready hs).trans hready
    | succ k =>
      obtain ⟨u, hu, hregs, hrest⟩ := edgeLeads_step he hs hin
      rw [runSteps_succ k hu] at ht
      exact ih hregs hrest (Nat.lt_of_succ_lt_succ hk) ht

/-! ### The edges of a frame, bit by bit -/

/-- The level of the second half of a bit: high for a 1, low for a 0 (30_encoding.md R71 step 1). -/
def bitLevel : Bool → Level
  | true => .high
  | false => .low

/-- The edges of a bit `b` after a bit `a`: between equal bits the line returns at the bit boundary, between different
ones it changes in the middle of the bit only. -/
def bitShape (a b : Bool) : List (Level × Gap) :=
  if a = b then [(bitLevel !b, .half), (bitLevel b, .half)] else [(bitLevel b, .full)]

/-- The edge after the last bit: the line returns to low. -/
def endShape (a : Bool) : List (Level × Gap) := if a then [(.low, .half)] else []

/-- The edges after the middle of bit `c` of `v`: those of the bits below it, the highest first, and the last edge. -/
def restShape (v : CmdWord) : Nat → List (Level × Gap)
  | 0 => endShape (v.getLsbD 0)
  | c + 1 => bitShape (v.getLsbD (c + 1)) (v.getLsbD c) ++ restShape v c

/-- The bits of `v` below `c`, the highest first. -/
def bitsBelow (v : CmdWord) : Nat → List Bool
  | 0 => []
  | c + 1 => v.getLsbD c :: bitsBelow v c

theorem frameBits_eq (v : CmdWord) : frameBits v = v.getLsbD 13 :: bitsBelow v 13 := rfl

/-- From the middle of a bit `a`, a bit `b` gives its own edges and leaves the line in its middle. -/
theorem edgesOf_halfLevels (a b : Bool) (hs : List Level) :
    edgesOf (bitLevel a) (some 0) (halfLevels b ++ hs) = bitShape a b ++ edgesOf (bitLevel b) (some 0) hs := by
  cases a <;> cases b <;> simp [halfLevels, edgesOf, bitLevel, bitShape, gapOf]

theorem edgesOf_end (a : Bool) : edgesOf (bitLevel a) (some 0) [.low] = endShape a := by
  cases a <;> rfl

theorem edgesOf_bitsBelow (v : CmdWord) (c : Nat) :
    edgesOf (bitLevel (v.getLsbD c)) (some 0) ((bitsBelow v c).flatMap halfLevels ++ [.low]) = restShape v c := by
  induction c with
  | zero => exact edgesOf_end _
  | succ c ih =>
    rw [bitsBelow, List.flatMap_cons, List.append_assoc, edgesOf_halfLevels, ih, restShape]

/-- A frame is its first edge, in the middle of the first bit, and the edges of the other bits (30_encoding.md R71). -/
theorem frameShape_eq (v : CmdWord) : frameShape v = (bitLevel (v.getLsbD 13), .first) :: restShape v 13 := by
  rw [← edgesOf_bitsBelow, frameShape, frameBits_eq, List.flatMap_cons, List.append_assoc]
  generalize v.getLsbD 13 = b
  cases b <;> simp [halfLevels, edgesOf, bitLevel, gapOf]

/-! ### Edges with fitting times -/

/-- The edges have the levels of the shape and times that fit it; `IsFrame v` is this for the shape of a frame. -/
def FitsShape (shape : List (Level × Gap)) (es : List (Level × Elapsed)) : Prop :=
  List.Forall₂ (fun e x => x.1 = e.1 ∧ Gap.fits e.2 x.2) shape es

theorem fitsShape_cons {level : Level} {gap : Gap} {shape : List (Level × Gap)} {es : List (Level × Elapsed)}
    (h : FitsShape ((level, gap) :: shape) es) :
    ∃ et fs, es = (level, et) :: fs ∧ Gap.fits gap et ∧ FitsShape shape fs := by
  obtain ⟨⟨level', et⟩, fs, ⟨rfl, hfits⟩, hrest, rfl⟩ := List.forall₂_cons_left_iff.mp h
  exact ⟨et, fs, rfl, hfits, hrest⟩

theorem fitsShape_append {shape shape' : List (Level × Gap)} {es : List (Level × Elapsed)}
    (h : FitsShape (shape ++ shape') es) : ∃ fs gs, es = fs ++ gs ∧ FitsShape shape fs ∧ FitsShape shape' gs :=
  ⟨_, _, (List.take_append_drop _ es).symm, (List.forall₂_take_append es shape shape' h.flip).flip,
    (List.forall₂_drop_append es shape shape' h.flip).flip⟩

theorem gap_has_fitting_time (gap : Gap) : ∃ et, Gap.fits gap et := by
  cases gap
  · exact ⟨889, .inl (by decide)⟩
  · exact ⟨889, (by decide : IsShort 889)⟩
  · exact ⟨1778, (by decide : IsLong 1778)⟩

/-- Every shape has edges that fit it. -/
theorem exists_fitsShape (shape : List (Level × Gap)) : ∃ es, FitsShape shape es := by
  induction shape with
  | nil => exact ⟨[], .nil⟩
  | cons e shape ih =>
    obtain ⟨et, het⟩ := gap_has_fitting_time e.2
    obtain ⟨es, hes⟩ := ih
    exact ⟨(e.1, et) :: es, .cons ⟨rfl, het⟩ hes⟩

/-! ### The registers along a frame -/

/-- The mid-phase of a bit. -/
def bitMid : Bool → Phase
  | true => .midOne
  | false => .midZero

/-- The start-phase after a bit. -/
def bitStart : Bool → Phase
  | true => .startOne
  | false => .startZero

/-- The bits of `v` at `c` and above. -/
def assembled (v : CmdWord) (c : Nat) : CmdWord := v >>> c <<< c

theorem assembled_getLsbD (v : CmdWord) (c j : Nat) :
    (assembled v c).getLsbD j = (decide (c ≤ j) && v.getLsbD j) := by
  rw [assembled, BitVec.getLsbD_shiftLeft, BitVec.getLsbD_ushiftRight]
  by_cases hc : c ≤ j
  · by_cases hj : j < 14
    · simp [hc, hj, Nat.add_sub_cancel' hc]
    · simp [hj, BitVec.getLsbD_of_ge v j (by omega)]
  · simp [hc, Nat.lt_of_not_le hc]

@[simp] theorem assembled_zero (v : CmdWord) : assembled v 0 = v := by
  simp [assembled]

/-- A word whose bits below `c` are 0 is its own assembled part. -/
theorem assembled_eq_self {v : CmdWord} {c : Nat} (h : ∀ j, j < c → v.getLsbD j = false) : assembled v c = v := by
  apply BitVec.eq_of_getLsbD_eq
  intro j _
  rw [assembled_getLsbD]
  by_cases hc : c ≤ j
  · simp [hc]
  · simp [hc, h j (Nat.lt_of_not_le hc)]

/-- The registers in the middle of bit `c` of `v`: its bit is committed, and a 0 as the last bit has completed the
frame. -/
def midRegs (v : CmdWord) (c : Fin 15) : Regs :=
  if c = 0 ∧ v.getLsbD c.val = false then ⟨assembled v c.val, c, .done, true⟩
  else ⟨assembled v c.val, c, bitMid (v.getLsbD c.val), false⟩

/-- The registers at the boundary after bit `c` of `v`, before an equal bit. -/
def startRegs (v : CmdWord) (c : Fin 15) : Regs := ⟨assembled v c.val, c, bitStart (v.getLsbD c.val), false⟩

theorem midRegs_of_pos {v : CmdWord} {c : Fin 15} (h : c ≠ 0) :
    midRegs v c = ⟨assembled v c.val, c, bitMid (v.getLsbD c.val), false⟩ := by
  rw [midRegs, if_neg fun hc => h hc.1]

/-- The three kinds of legal transitions between two bits (41_edge_operation.md R101). -/
theorem transition_confirm (b : Bool) :
    ∃ ev, event (bitLevel !b) .short = some ev ∧ transition (bitMid b) ev = some (bitStart b) := by
  cases b <;> exact ⟨_, rfl, rfl⟩

theorem transition_repeat (b : Bool) :
    ∃ ev, event (bitLevel b) .short = some ev ∧ transition (bitStart b) ev = some (bitMid b) := by
  cases b <;> exact ⟨_, rfl, rfl⟩

theorem transition_change (b : Bool) :
    ∃ ev, event (bitLevel b) .long = some ev ∧ transition (bitMid !b) ev = some (bitMid b) := by
  cases b <;> exact ⟨_, rfl, rfl⟩

/-- A legal transition leads where steps 7 to 9 lead. -/
theorem edgeLeads_of_advance {r r' : Regs} {level : Level} {et : Elapsed} {cls : TimingClass} {p nxt : Phase}
    (hcls : classify et = cls) (hp : r.phase = p)
    (hT : ∃ ev, event level cls = some ev ∧ transition p ev = some nxt)
    (hadv : ∀ s, regsOf s = r → regsOf (s.advance nxt) = r') : EdgeLeads r (level, et) r' := by
  intro s hs
  obtain ⟨ev, hev, hT⟩ := hT
  have hphase : s.phase = p := (congrArg Regs.phase hs).trans hp
  exact ⟨_, exec_edge_of_transition (hcls ▸ hev) (hphase ▸ hT), hadv _ hs⟩

/-- A commit of bit `c` of `v`, whichever its value: of `CW` at most the bit at the new `CNT` is set. -/
theorem assembled_of_commit {v : CmdWord} {c : Fin 15} {s t : State} (hcw : s.cw = assembled v (c.val + 1))
    (hcnt : s.cnt.val = c.val + 1) (hdown : t.cnt.val + 1 = s.cnt.val)
    (hbits : ∀ j, j < 14 → t.cw.getLsbD j = (s.cw.getLsbD j || (decide (j = t.cnt.val) && v.getLsbD c.val))) :
    t.cnt = c ∧ t.cw = assembled v c.val := by
  have hc : t.cnt = c := Fin.ext (by omega)
  refine ⟨hc, BitVec.eq_of_getLsbD_eq fun j hj => ?_⟩
  rw [hbits j hj, hcw, hc, assembled_getLsbD, assembled_getLsbD]
  rcases Nat.lt_trichotomy j c.val with h | rfl | h
  · simp [h.ne, Nat.not_le.mpr h, show ¬c.val + 1 ≤ j by omega]
  · simp
  · simp [h.ne', h.le, show c.val + 1 ≤ j by omega]

/-- Entering the mid-phase of bit `c` of `v` commits it, and completes the frame if it is a 0 and the last bit. -/
theorem regsOf_advance_bitMid {v : CmdWord} {c : Fin 15} {s : State} (hcw : s.cw = assembled v (c.val + 1))
    (hcnt : s.cnt.val = c.val + 1) (hready : s.ready = false) :
    regsOf (s.advance (bitMid (v.getLsbD c.val))) = midRegs v c := by
  have hno : ¬((bitMid (v.getLsbD c.val)).mid = true ∧ s.cnt = 0) := fun hov => by simp [hov.2] at hcnt
  have hcommit := commitEffect_advance hno
  have hfin := finishEffect_advance hno
  generalize s.advance (bitMid (v.getLsbD c.val)) = t at hcommit hfin
  cases hb : v.getLsbD c.val <;> rw [hb] at hcommit hfin
  case true =>
    obtain ⟨hdown, hbits⟩ : CommittedOne s t := hcommit
    obtain ⟨hc, hcw'⟩ := assembled_of_commit hcw hcnt hdown (by simpa only [hb, Bool.and_true] using hbits)
    obtain ⟨hphase, hready', -⟩ : Entered .midOne s t := by simpa [FinishEffect, bitMid] using hfin
    rw [regsOf, midRegs, if_neg fun h => Bool.noConfusion (hb.symm.trans h.2), hc, hcw', hphase, hready', hready, hb,
      bitMid]
  case false =>
    obtain ⟨hdown, hkept⟩ : CommittedZero s t := hcommit
    obtain ⟨hc, hcw'⟩ := assembled_of_commit hcw hcnt hdown (by simp [hkept, hb])
    by_cases h0 : c = 0
    · obtain ⟨hphase, hready', -⟩ : Completed s t := by simpa [FinishEffect, bitMid, hc, h0] using hfin
      rw [regsOf, midRegs, if_pos ⟨h0, hb⟩, hc, hcw', hphase, hready']
    · obtain ⟨hphase, hready', -⟩ : Entered .midZero s t := by simpa [FinishEffect, bitMid, hc, h0] using hfin
      rw [regsOf, midRegs_of_pos h0, hc, hcw', hphase, hready', hready, hb, bitMid]

/-- Confirming bit `c` of `v` at its boundary, unless it is the last. -/
theorem regsOf_advance_bitStart {v : CmdWord} {c : Fin 15} {s : State} (hc : c ≠ 0) (hs : regsOf s = midRegs v c) :
    regsOf (s.advance (bitStart (v.getLsbD c.val))) = startRegs v c := by
  rw [midRegs_of_pos hc] at hs
  obtain ⟨hcw, hcnt, -, hready⟩ := Regs.mk.inj hs
  have hne : s.cnt ≠ 0 := hcnt ▸ hc
  cases hb : v.getLsbD c.val
  case true =>
    obtain ⟨⟨hcnt', hcw'⟩, hfin⟩ := advance_startOne_effect s
    rw [if_neg hne] at hfin
    obtain ⟨hphase, hready', -⟩ := hfin
    rw [bitStart, regsOf, startRegs, hcw', hcw, hcnt', hcnt, hphase, hready', hready, hb, bitStart]
  case false =>
    obtain ⟨⟨hcnt', hcw'⟩, hphase, hready', -⟩ := advance_startZero_effect s
    rw [bitStart, regsOf, startRegs, hcw', hcw, hcnt', hcnt, hphase, hready', hready, hb, bitStart]

/-! ### Edge by edge -/

/-- The first edge brings the reset registers to the middle of the first bit (41_edge_operation.md R103, R104). -/
theorem edgeLeads_first (v : CmdWord) {et : Elapsed} (het : IsShort et ∨ IsLong et) :
    EdgeLeads resetRegs (bitLevel (v.getLsbD 13), et) (midRegs v 13) := by
  intro s hs
  obtain ⟨hcw, hcnt, hphase, hready⟩ := regsOf_eq_resetRegs_iff.mp hs
  have hmid : midRegs v 13 = ⟨assembled v 13, 13, bitMid (v.getLsbD 13), false⟩ := midRegs_of_pos (by decide)
  have hbits (cw : CmdWord) (h : ∀ j, j < 14 → cw.getLsbD j = (decide (j = 13) && v.getLsbD 13)) :
      cw = assembled v 13 := by
    refine BitVec.eq_of_getLsbD_eq fun j hj => ?_
    rw [h j hj, assembled_getLsbD]
    by_cases h13 : j = 13
    · simp [h13]
    · simp [h13, show ¬13 ≤ j by omega]
  rw [hmid]
  cases hb : v.getLsbD 13
  case true =>
    refine ⟨_, exec_edge_high_of_initial hphase het, ?_⟩
    rw [← hbits (setBit s.cw 13) fun j hj => by rw [setBit_getLsbD _ _ _ hj, hcw, hb]; simp]
    exact congrArg (Regs.mk _ 13 .midOne) hready
  case false =>
    refine ⟨_, exec_edge_low_of_initial hphase het, ?_⟩
    rw [← hbits s.cw fun j _ => by rw [hcw, hb]; simp]
    exact congrArg (Regs.mk _ 13 .midZero) hready

/-- From the middle of bit `c` to its boundary. -/
theorem edgeLeads_confirm {v : CmdWord} {c : Fin 15} (hc : c ≠ 0) {et : Elapsed} (het : IsShort et) :
    EdgeLeads (midRegs v c) (bitLevel !(v.getLsbD c.val), et) (startRegs v c) :=
  edgeLeads_of_advance (classify_of_short het) (by rw [midRegs_of_pos hc]) (transition_confirm _)
    fun _ hs => regsOf_advance_bitStart hc hs

/-- From the boundary after a bit to the middle of the next, which is equal to it. -/
theorem edgeLeads_repeat {v : CmdWord} {b c : Fin 15} (hbc : b.val = c.val + 1)
    (hb : v.getLsbD b.val = v.getLsbD c.val) {et : Elapsed} (het : IsShort et) :
    EdgeLeads (startRegs v b) (bitLevel (v.getLsbD c.val), et) (midRegs v c) :=
  edgeLeads_of_advance (classify_of_short het) (congrArg bitStart hb) (transition_repeat _) fun s hs => by
    obtain ⟨hcw, hcnt, -, hready⟩ := Regs.mk.inj hs
    exact regsOf_advance_bitMid (hbc ▸ hcw) (hcnt ▸ hbc) hready

/-- From the middle of a bit to the middle of the next, which differs from it. -/
theorem edgeLeads_change {v : CmdWord} {b c : Fin 15} (hbc : b.val = c.val + 1)
    (hb : v.getLsbD b.val ≠ v.getLsbD c.val) {et : Elapsed} (het : IsLong et) :
    EdgeLeads (midRegs v b) (bitLevel (v.getLsbD c.val), et) (midRegs v c) := by
  have hpos : b ≠ 0 := fun h0 => by simp [h0] at hbc
  rw [midRegs_of_pos hpos]
  refine edgeLeads_of_advance (classify_of_long het) (congrArg bitMid (Bool.eq_not.mpr hb)) (transition_change _)
    fun s hs => ?_
  obtain ⟨hcw, hcnt, -, hready⟩ := Regs.mk.inj hs
  exact regsOf_advance_bitMid (hbc ▸ hcw) (hcnt ▸ hbc) hready

/-- A 1 as the last bit is completed by the edge back to low (41_edge_operation.md R106). -/
theorem edgeLeads_last {v : CmdWord} (hb : v.getLsbD 0 = true) {et : Elapsed} (het : IsShort et) :
    EdgeLeads (midRegs v 0) (.low, et) ⟨v, 0, .done, true⟩ := by
  have hmid : midRegs v 0 = ⟨v, 0, .midOne, false⟩ := by
    rw [midRegs, if_neg fun h => Bool.noConfusion (hb.symm.trans h.2), Fin.val_zero, assembled_zero, hb, bitMid]
  rw [hmid]
  refine edgeLeads_of_advance (classify_of_short het) rfl (transition_confirm true) fun s hs => ?_
  obtain ⟨hcw, hcnt, -, -⟩ := Regs.mk.inj hs
  obtain ⟨⟨hcnt', hcw'⟩, hfin⟩ := advance_startOne_effect s
  rw [if_pos hcnt] at hfin
  obtain ⟨hphase, hready, -⟩ := hfin
  rw [bitStart, regsOf, hcw', hcw, hcnt', hcnt, hphase, hready]

/-! ### Bit by bit -/

/-- The edges of a bit lead from the middle of the bit before it to its own. -/
theorem edgePath_bit {v : CmdWord} {b c : Fin 15} (hbc : b.val = c.val + 1) {es : List (Level × Elapsed)}
    (hes : FitsShape (bitShape (v.getLsbD b.val) (v.getLsbD c.val)) es) : EdgePath (midRegs v b) es (midRegs v c) := by
  have hpos : b ≠ 0 := fun h0 => by simp [h0] at hbc
  have hready : (midRegs v b).ready = false := by rw [midRegs_of_pos hpos]
  unfold bitShape at hes
  split_ifs at hes with hb
  · obtain ⟨et, fs, rfl, het, hfs⟩ := fitsShape_cons hes
    obtain ⟨et', gs, rfl, het', hgs⟩ := fitsShape_cons hfs
    obtain rfl := List.forall₂_nil_left_iff.mp hgs
    exact .cons hready (hb ▸ edgeLeads_confirm hpos het) (.single rfl (edgeLeads_repeat hbc hb het'))
  · obtain ⟨et, fs, rfl, het, hfs⟩ := fitsShape_cons hes
    obtain rfl := List.forall₂_nil_left_iff.mp hfs
    exact .single hready (edgeLeads_change hbc hb het)

/-- From the middle of the last bit to the end of the frame. -/
theorem edgePath_end {v : CmdWord} {es : List (Level × Elapsed)} (hes : FitsShape (endShape (v.getLsbD 0)) es) :
    EdgePath (midRegs v 0) es ⟨v, 0, .done, true⟩ := by
  unfold endShape at hes
  split_ifs at hes with hb
  · obtain ⟨et, fs, rfl, het, hfs⟩ := fitsShape_cons hes
    obtain rfl := List.forall₂_nil_left_iff.mp hfs
    refine .single ?_ (edgeLeads_last hb het)
    rw [midRegs, if_neg fun h => Bool.noConfusion (hb.symm.trans h.2)]
  · obtain rfl := List.forall₂_nil_left_iff.mp hes
    have hdone : midRegs v 0 = ⟨v, 0, .done, true⟩ := by
      rw [midRegs, if_pos ⟨rfl, Bool.eq_false_iff.mpr hb⟩, Fin.val_zero, assembled_zero]
    rw [hdone]
    exact .nil _

/-- The edges after the middle of bit `c`, bit by bit to the end of the frame. -/
theorem edgePath_rest (v : CmdWord) (c : Nat) :
    ∀ (hc : c < 15) {es : List (Level × Elapsed)}, FitsShape (restShape v c) es →
      EdgePath (midRegs v ⟨c, hc⟩) es ⟨v, 0, .done, true⟩ := by
  induction c with
  | zero => exact fun _ _ hes => edgePath_end hes
  | succ c ih =>
    intro hc es hes
    obtain ⟨fs, gs, rfl, hfs, hgs⟩ := fitsShape_append hes
    have hbit : EdgePath (midRegs v ⟨c + 1, hc⟩) fs (midRegs v ⟨c, by omega⟩) := edgePath_bit rfl hfs
    exact hbit.append (ih _ hgs)

/-- A frame of `v` leads from the reset registers to the completed frame of `v`. -/
theorem edgePath_frame {v : CmdWord} {es : List (Level × Elapsed)} (hes : IsFrame v es) :
    EdgePath resetRegs es ⟨v, 0, .done, true⟩ := by
  rw [IsFrame, frameShape_eq] at hes
  obtain ⟨et, fs, rfl, het, hfs⟩ := fitsShape_cons hes
  exact .cons rfl (edgeLeads_first v het) (edgePath_rest v 13 (by decide) hfs)

/-! ### The statements -/

/-- Settles O59: the path of a frame, run from the reset state. -/
theorem everyWellFormedFrameDecodes : Obligations.EveryWellFormedFrameDecodes := by
  unfold Obligations.EveryWellFormedFrameDecodes
  intro v edges rest hframe
  obtain ⟨t, ht, hregs, hinputs⟩ :=
    (edgePath_frame hframe).run rest (s := { State.reset with inputs := edges.map edgeCycle ++ rest }) rfl rfl
  obtain ⟨hcw, -, -, hready⟩ := Regs.mk.inj hregs
  exact ⟨t, ht, hregs, by rw [pollData, hready, hcw, if_pos rfl], hinputs⟩

/-- Settles O60: on the path of a frame no command is ready before its last edge. -/
theorem noFramePublishesEarly : Obligations.NoFramePublishesEarly := by
  unfold Obligations.NoFramePublishesEarly
  intro v edges k t hframe hk ht
  exact (edgePath_frame hframe).not_ready_of_lt [] rfl (List.append_nil _).symm hk ht

/-! ### Every consistent state is reached (10_state.md R28) -/

/-- The middle of every bit is reached, by induction on the bits before it. -/
theorem exists_edgePath_midRegs (v : CmdWord) (n : Nat) :
    ∀ c : Fin 15, c.val + n = 13 → ∃ es, EdgePath resetRegs es (midRegs v c) := by
  induction n with
  | zero =>
    intro c hc
    obtain rfl : c = 13 := Fin.ext hc
    exact ⟨_, .single rfl (edgeLeads_first v (et := 889) (.inl (by decide)))⟩
  | succ n ih =>
    intro c hc
    obtain ⟨es, hes⟩ := ih ⟨c.val + 1, by omega⟩ (by simp only; omega)
    obtain ⟨fs, hfs⟩ := exists_fitsShape (bitShape (v.getLsbD (c.val + 1)) (v.getLsbD c.val))
    exact ⟨es ++ fs, hes.append (edgePath_bit rfl hfs)⟩

/-- The registers of a session are those of a mid-phase, or of a start-phase before the last bit. -/
theorem InSession.regsOf_eq {s : State} (h : InSession s) :
    regsOf s = midRegs s.cw s.cnt ∨ s.cnt ≠ 0 ∧ regsOf s = startRegs s.cw s.cnt := by
  obtain ⟨hworking, hready, -, hpos, hbelow, hlast⟩ := h
  have hcw : assembled s.cw s.cnt.val = s.cw := assembled_eq_self hbelow
  have hne (hp : s.phase ≠ .midOne) : s.cnt ≠ 0 := fun h0 => by simpa [h0] using hpos hp
  cases hphase : s.phase <;> rw [hphase] at hlast hne
  case midOne =>
    left
    rw [midRegs, if_neg fun h => Bool.noConfusion (hlast.symm.trans h.2), hlast, hcw, regsOf, hphase, hready]
    rfl
  case midZero =>
    left
    rw [midRegs_of_pos (hne (by simp)), hlast, hcw, regsOf, hphase, hready]
    rfl
  case startOne =>
    refine .inr ⟨hne (by simp), ?_⟩
    rw [startRegs, hlast, hcw, regsOf, hphase, hready]
    rfl
  case startZero =>
    refine .inr ⟨hne (by simp), ?_⟩
    rw [startRegs, hlast, hcw, regsOf, hphase, hready]
    rfl
  all_goals
    rw [hphase] at hworking
    cases hworking

/-- Every consistent combination lies on the way of a frame of its own `CW`. -/
theorem exists_edgePath_of_consistent {s : State} (hs : Consistent s) : ∃ es, EdgePath resetRegs es (regsOf s) := by
  rcases consistent_iff.mp hs with hreset | ⟨hphase, hready, hcnt⟩ | hsession
  · exact ⟨[], hreset ▸ .nil _⟩
  · obtain ⟨es, hes⟩ := exists_fitsShape (frameShape s.cw)
    rw [regsOf, hcnt, hphase, hready]
    exact ⟨es, edgePath_frame hes⟩
  · obtain ⟨es, hes⟩ := exists_edgePath_midRegs s.cw (13 - s.cnt.val) s.cnt (Nat.add_sub_cancel' hsession.cnt_le)
    rcases hsession.regsOf_eq with hregs | ⟨h0, hregs⟩ <;> rw [hregs]
    · exact ⟨es, hes⟩
    · have hready : (midRegs s.cw s.cnt).ready = false := by rw [midRegs_of_pos h0]
      exact ⟨_, hes.append (.single hready (edgeLeads_confirm h0 (et := 889) (by decide)))⟩

/-- Settles O53: the path to the registers, run from the reset state. -/
theorem everyConsistentStateIsReached : Obligations.EveryConsistentStateIsReached := by
  unfold Obligations.EveryConsistentStateIsReached
  intro s hs
  obtain ⟨es, hes⟩ := exists_edgePath_of_consistent hs
  obtain ⟨t, ht, hregs, -⟩ :=
    hes.run [] (s := { State.reset with inputs := es.map edgeCycle }) rfl (List.append_nil _).symm
  exact ⟨es.map edgeCycle, t, by rw [List.length_map]; exact ht, hregs⟩

end Sys2Proof
end
